-- ==== Sys2Proof/Word.lean ====
section
/-! DEFINITION. The word and the byte of the engine (00_scope.md R10): 32 and 8 bits, unsigned, bit 0 least
significant. `+` on `Word` is the `+32` of R11, and `&&&`, `|||`, `^^^`, `~~~` its bitwise operators. -/

namespace Sys2Proof

/-- A 32-bit word (R10). -/
abbrev Word := BitVec 32

/-- An 8-bit byte (R10). -/
abbrev Byte := BitVec 8

end Sys2Proof
end

