-- ==== Sys2Proof/Config.lean ====
section
/-! DEFINITION. What an implementation fixes (00_scope.md R9) and the free values. `opaque` constants have no body: no
proof can learn their value, so a statement that holds, holds whatever they are. -/

namespace Sys2Proof

/-- 32-bit words per RSA operand register, `RSA_WORDS` (R9, D10), the length of the vectors in State (log 18). -/
def Config.rsaWords : Nat := 128

/-- The interface version (R1, R36). -/
def Config.interfaceVersion : Nat := 1

/-- The ID register, "SHRS" in ASCII (R35). -/
def Config.idWord : Word := 0x53485253#32

/-- The CFG register: interface version in 31:16, `RSA_WORDS` in 15:0 (R36). -/
def Config.cfgWord : Word :=
  BitVec.ofNat 16 Config.interfaceVersion ++ BitVec.ofNat 16 Config.rsaWords

/-- FREE VALUE. Which multiple of 8 KiB `BASE` is: a platform parameter, OPEN (R50, I10; log 6). -/
opaque Config.baseIndex : Nat

/-- `BASE`, the bus address of offset 0: a multiple of 0x2000 (R50). -/
def Config.base : Nat := Config.baseIndex * 0x2000

/-- FREE VALUE. What the `k`-th unspecified (`ANY`) read returns: "a fresh draw with no law" (R55, R63, I1; log 3). -/
opaque Config.anyRead : Nat → Word

/-- FREE VALUE. The value an unwritten data word holds: "On the hardware an unwritten word holds an unspecified value"
(R38). It is a function of the number of platform resets so far, because software must not assume "that they keep their
values across reset" (R202), and of the word's offset in the window; nothing says more of it (log 1). -/
opaque Config.unwrittenWord : Nat → Nat → Word

end Sys2Proof
end

