-- ==== Sys2Proof/Syntax.lean ====
section
/-! DEFINITION. The six commands of the engine, one constructor per row of spec/opcode_table.json (30_encoding.md R83). -/

namespace Sys2Proof

/-- A command. Its operands are the fixed registers its rule names; only SHA_FINAL carries a field (R82). -/
inductive Instr where
  /-- SHA_INIT: start a message (R115). -/
  | shaInit
  /-- SHA_BLOCK: absorb the 64-byte block in MSG (R116). -/
  | shaBlock
  /-- SHA_FINAL r: absorb the last `r` bytes, pad, produce the digest (R117). `r` is the NB field, a count of bytes. -/
  | shaFinal (r : Nat)
  /-- RSA_MODEXP: R <- int(B)^int(E) mod int(N) (R146). -/
  | rsaModexp
  /-- RSA_SIGN: R <- (digest mod N)^E mod N (R147). -/
  | rsaSign
  /-- RSA_VERIFY: VERIFY_OK <- (B^E mod N = digest mod N) (R148). -/
  | rsaVerify
deriving DecidableEq, Repr

end Sys2Proof
end

