-- ==== Sys2Proof/Machine/State.lean ====
section
/-! DEFINITION. The state of the machine: the engine's architectural state (10_state.md R20), the host agent of R16 and
R90, the order of moves and the draw counter; the reasons a step can stop; and the state after reset (R201, R202). -/

namespace Sys2Proof.Machine

open Sys2Proof

/-- One 32-bit data word of MSG, H, N, E, B or R: "Each word ... is either written or unwritten" (R38). It holds a value
either way; that of an unwritten word is unspecified (log 1). -/
structure DataWord where
  value : Word
  written : Bool
deriving DecidableEq, Repr

/-- The result codes of a command (60_exceptions.md R171). -/
inductive ErrCode where
  | ok | illegalCmd | sequence | lenOverflow | noDigest | modZero | keyInvalid | invalidSignature
deriving DecidableEq, Repr

/-- The registers of the window, one per mapped offset (R39). -/
inductive WindowReg where
  | id | cfg | ctrl | status | cmd | lenLo | lenHi
  | msg (i : Fin 16)
  | h (i : Fin 8)
  | n (j : Fin 128)
  | e (j : Fin 128)
  | b (j : Fin 128)
  | r (j : Fin 128)
deriving DecidableEq, Repr

/-- The width of a bus access (R52). -/
inductive Width where
  | w8 | w16 | w32 | w64
deriving DecidableEq, Repr

/-- One access of the host to a bus address. Only a 32-bit access reaches a register, so the data of a write is a
word (R52). -/
inductive Access where
  | read (w : Width) (addr : Nat)
  | write (w : Width) (addr : Nat) (v : Word)
deriving DecidableEq, Repr

/-- A statement of a host program (R90); `target` is the index of the statement the label names. -/
inductive Stmt where
  /-- WR off, imm. -/
  | wr (off : Nat) (imm : Word)
  /-- RD off. -/
  | rd (off : Nat)
  /-- BNZ mask, label. -/
  | bnz (mask : Word) (target : Nat)
  /-- BZ mask, label. -/
  | bz (mask : Word) (target : Nat)
  /-- HALT. -/
  | halt
deriving DecidableEq, Repr

/-- The host agent (R16, R90): its accumulator, its program and the index of its next statement. -/
structure HostAgent where
  acc : Word
  prog : List Stmt
  pc : Nat
deriving DecidableEq, Repr

/-- Who moves (R16; log 4). -/
inductive Turn where
  /-- The engine completes the command in flight, if there is one (R88). -/
  | engine
  /-- The host executes its next statement (R90). -/
  | host
  /-- The host makes one bus access of any width at any bus address (R52). -/
  | bus (a : Access)
  /-- The platform resets the engine (R200). -/
  | reset
deriving DecidableEq, Repr

/-- Everything the machine holds. -/
structure State where
  /-- MSG[0..15] (R21). -/
  msg : Vector DataWord 16
  /-- H[0..7] (R22). -/
  h : Vector DataWord 8
  /-- LEN (R23). -/
  len : BitVec 64
  /-- SHA_ACTIVE (R24). -/
  shaActive : Bool
  /-- DIGEST_VALID (R25). -/
  digestValid : Bool
  /-- N[0..127] (R26). -/
  n : Vector DataWord 128
  /-- E[0..127] (R26). -/
  e : Vector DataWord 128
  /-- B[0..127] (R26). -/
  b : Vector DataWord 128
  /-- R[0..127] (R27). -/
  r : Vector DataWord 128
  /-- VERIFY_OK (R28). -/
  verifyOk : Bool
  /-- CUR (R29). -/
  cur : Word
  /-- BUSY (R30). -/
  busy : Bool
  /-- DONE (R31). -/
  done : Bool
  /-- WERR (R32). -/
  werr : Bool
  /-- ERR (R33). -/
  err : BitVec 4
  /-- CTRL.IE (R34). -/
  ie : Bool
  /-- The host agent (R16, R90). -/
  host : HostAgent
  /-- The MODEL's own: the moves still to come, oldest first (log 4). -/
  turns : List Turn
  /-- The MODEL's own: the number of unspecified reads drawn so far (log 3). -/
  draws : Nat
  /-- The MODEL's own: the number of platform resets so far, the argument of the free value of an unwritten word (log 1). -/
  resets : Nat
deriving DecidableEq, Repr

/-- Why an access is answered with a bus error (R52, R53). -/
inductive BusErrorCause where
  | width | misaligned | unmapped
deriving DecidableEq, Repr

/-- The reasons the machine stops with a fault. -/
inductive Fault where
  /-- Raised by a host access of a width other than 32 bits, misaligned, or at an unmapped offset (R52 to R54, I14). Safe:
  the spec says a model records it as a fault of the host agent, and no engine state changes (log 8). -/
  | busError (cause : BusErrorCause) (off : Nat)
deriving DecidableEq, Repr

/-- The reasons a step has no meaning. -/
inductive Refusal where
  /-- Raised by an arm of `exec` whose instruction has no meaning yet. Safe. No arm uses it. -/
  | notModelled (mnemonic : String)
  /-- Raised by a host access at a bus address outside the window: it is no access to this engine (R50). Safe (log 7). -/
  | outsideWindow (addr : Nat)
  /-- Raised by `exec` on a term that no command word decodes to: SHA_FINAL with a count above 63 (R82). Safe (log 16). -/
  | notEncodable (mnemonic : String)
deriving DecidableEq, Repr

/-- The three outcomes of a step of this machine. -/
abbrev Result := Host.Outcome State Fault Refusal

/-- A data word that nothing has written since reset and that holds the value `v` (R38, R202). -/
def DataWord.unwritten (v : Word) : DataWord := { value := v, written := false }

/-- A written data word. -/
def DataWord.ofWord (v : Word) : DataWord := { value := v, written := true }

/-- The `n` words of the register at offset `base` after the `resets`-th reset: each unwritten, with its unspecified value
(R202; log 1). -/
def unwrittenRegister (resets base n : Nat) : Vector DataWord n :=
  ⟨((List.range n).map fun k => .unwritten (Config.unwrittenWord resets (base + 4 * k))).toArray, by simp⟩

/-- The machine right after a reset (R201, R202, R204), `resets` of them before it: the host has no program and no move is
planned (log 5, log 12). -/
def State.afterReset (resets : Nat) : State where
  msg := unwrittenRegister resets 0x0040 16
  h := unwrittenRegister resets 0x0080 8
  len := 0#64
  shaActive := false
  digestValid := false
  n := unwrittenRegister resets 0x1000 128
  e := unwrittenRegister resets 0x1200 128
  b := unwrittenRegister resets 0x1400 128
  r := unwrittenRegister resets 0x1600 128
  verifyOk := false
  cur := 0#32
  busy := false
  done := false
  werr := false
  err := 0#4
  ie := false
  host := { acc := 0#32, prog := [], pc := 0 }
  turns := []
  draws := 0
  resets := resets

/-- The machine right after its first reset (R201, R202). -/
def State.reset : State := State.afterReset 0

end Sys2Proof.Machine
end

