-- ==== Sys2Proof/Machine/Flags.lean ====
section
/-! DEFINITION. The STATUS and CTRL words, the result codes and the interrupt output, all computed from the state
(10_state.md R34, R40; 60_exceptions.md R171, R183). -/

namespace Sys2Proof.Machine

open Sys2Proof

/-- The number of a result code in STATUS bits 11:8 (R171). -/
def ErrCode.code : ErrCode → BitVec 4
  | .ok => 0x0#4
  | .illegalCmd => 0x1#4
  | .sequence => 0x2#4
  | .lenOverflow => 0x3#4
  | .noDigest => 0x4#4
  | .modZero => 0x5#4
  | .keyInvalid => 0x6#4
  | .invalidSignature => 0x7#4

/-- STATUS, from bit 31 down (R40). -/
def statusWord (s : State) : Word :=
  0#20 ++ s.err ++ 0#2 ++ BitVec.ofBool s.verifyOk ++ BitVec.ofBool s.digestValid ++ BitVec.ofBool s.shaActive
    ++ BitVec.ofBool s.werr ++ BitVec.ofBool s.done ++ BitVec.ofBool s.busy

/-- CTRL: IE in bit 0, the rest reads 0 (R34). -/
def ctrlWord (s : State) : Word := 0#31 ++ BitVec.ofBool s.ie

/-- The level of the interrupt output, `CTRL.IE & STATUS.DONE` at all times (R183). -/
def irq (s : State) : Bool := s.ie && s.done

end Sys2Proof.Machine
end

