-- ==== Sys2Proof/Machine/Ops.lean ====
section
/-! DEFINITION. The named operations over the state: one update per thing the spec says is written, issue (R87),
completion with and without error (R88, R180), the host's acknowledgement (R185) and reset (R200 to R203). -/

namespace Sys2Proof.Machine

open Sys2Proof

/-! ### Updates -/

/-- Write H and LEN; every word of H becomes written (R38). -/
def State.setHash (s : State) (h : Vector DataWord 8) (len : BitVec 64) : State := { s with h := h, len := len }

/-- Write SHA_ACTIVE and DIGEST_VALID (R24, R25). -/
def State.setShaFlags (s : State) (active valid : Bool) : State := { s with shaActive := active, digestValid := valid }

/-- Write all 128 words of R (R27). -/
def State.setR (s : State) (r : Vector DataWord 128) : State := { s with r := r }

/-- Write VERIFY_OK (R28). -/
def State.setVerifyOk (s : State) (v : Bool) : State := { s with verifyOk := v }

/-- MSG[i] <- v, written (R57). -/
def State.setMsgWord (s : State) (i : Fin 16) (v : Word) : State := { s with msg := s.msg.set i (.ofWord v) }

/-- N[j] <- v, written (R57). -/
def State.setNWord (s : State) (j : Fin 128) (v : Word) : State := { s with n := s.n.set j (.ofWord v) }

/-- E[j] <- v, written (R57). -/
def State.setEWord (s : State) (j : Fin 128) (v : Word) : State := { s with e := s.e.set j (.ofWord v) }

/-- B[j] <- v, written (R57). -/
def State.setBWord (s : State) (j : Fin 128) (v : Word) : State := { s with b := s.b.set j (.ofWord v) }

/-- WERR <- 1: an ignored write (R32, R61, R62). -/
def State.setWerr (s : State) : State := { s with werr := true }

/-- CTRL <- v: only bit 0 is held (R34). -/
def State.writeCtrl (s : State) (v : Word) : State := { s with ie := v.getLsbD 0 }

/-- STATUS <- v: bits 1 and 2 clear DONE and WERR where they are 1, the other bits do nothing (R31, R32, R40). Writing 1 to
bit 1 is the host's "return" from the completion interrupt (R185). -/
def State.writeStatus (s : State) (v : Word) : State :=
  { s with done := s.done && !v.getLsbD 1, werr := s.werr && !v.getLsbD 2 }

/-- acc <- v (R90). -/
def State.setAcc (s : State) (v : Word) : State := { s with host := { s.host with acc := v } }

/-- The host's next statement is statement `pc` (R90). -/
def State.setPc (s : State) (pc : Nat) : State := { s with host := { s.host with pc := pc } }

/-- The moves still to come. -/
def State.setTurns (s : State) (ts : List Turn) : State := { s with turns := ts }

/-- One unspecified read was drawn (log 3). -/
def State.countDraw (s : State) : State := { s with draws := s.draws + 1 }

/-! ### Issue and completion -/

/-- Issue of a command word: CUR <- v, BUSY <- 1, nothing else (R87). -/
def State.issue (s : State) (v : Word) : State := { s with cur := v, busy := true }

/-- The end of every completion: ERR <- code, DONE <- 1, BUSY <- 0 (R88). -/
def State.finish (s : State) (code : ErrCode) : State := { s with err := code.code, done := true, busy := false }

/-- The state after `complete()`: the command ends without error, its updates already in `s` (R88). -/
def complete (s : State) : State := s.finish .ok

/-- The state after `raise Error(code)`: the command ends with `code` and nothing else changes (R180). This is the engine's
whole exception entry: no trap, no vector, no saved state (R170, R185). -/
def raiseError (code : ErrCode) (s : State) : State := s.finish code

/-- The state after `VERIFY_OK <- 0; raise Error(code)`: the error completion of RSA_VERIFY (R148, R180). -/
def raiseVerifyError (code : ErrCode) (s : State) : State := raiseError code (s.setVerifyOk false)

/-! ### Reset -/

/-- Platform reset: every piece of engine state as after reset, whatever the engine was doing (R200 to R203), the unwritten
words with new unspecified values (R202). The host agent, the moves still to come and the draw counter are not the engine's
and stay (log 17). -/
def State.resetEngine (s : State) : State :=
  { State.afterReset (s.resets + 1) with host := s.host, turns := s.turns, draws := s.draws }

end Sys2Proof.Machine
end

