-- ==== Sys2Proof/Machine/Operands.lean ====
section
/-! DEFINITION. The operand forms: the values of data words (R38), message bytes in MSG words (R12, R64), operand registers
as integers (R13, R65), the digest as an integer (R66, R144), and how results go back into data words. -/

namespace Sys2Proof.Machine

open Sys2Proof

/-- The values of data words, written or not: "A command that consumes an unwritten word computes with an unspecified value"
(R38), which is the value the word holds (log 1). -/
def valuesOf (ws : List DataWord) : List Word := ws.map (·.value)

/-- `byte_j(w)`: byte 0 is the most significant (R12). -/
def byteOf (j : Nat) (w : Word) : Byte := w.extractLsb' (24 - 8 * j) 8

/-- `BE32(b0, b1, b2, b3)`: the first byte is the most significant (R12). -/
def be32 (b0 b1 b2 b3 : Byte) : Word := b0 ++ b1 ++ b2 ++ b3

/-- `BE64(L)`: the 8 bytes of L, most significant first (R12). -/
def be64 (len : BitVec 64) : List Byte := (List.range 8).map fun k => len.extractLsb' (56 - 8 * k) 8

/-- The bytes of message words in message order: byte 4i + k is `byte_k` of word i (R64, R113). -/
def bytesOfWords (ws : List Word) : List Byte := ws.flatMap fun w => [byteOf 0 w, byteOf 1 w, byteOf 2 w, byteOf 3 w]

/-- Message bytes packed big-endian into words (R64, R114); a tail of fewer than 4 bytes is dropped. -/
def wordsOfBytes : List Byte → List Word
  | b0 :: b1 :: b2 :: b3 :: bs => be32 b0 b1 b2 b3 :: wordsOfBytes bs
  | _ => []

/-- `int(X)` of the words of an operand register, word 0 least significant (R13). -/
def intOf : List Word → Nat
  | [] => 0
  | w :: ws => w.toNat + 2 ^ 32 * intOf ws

/-- `toReg(v)`: word j is floor(v / 2^(32j)) mod 2^32, every word written (R13, R38). -/
def toReg (v : Nat) : Vector DataWord 128 :=
  ⟨((List.range 128).map fun j => .ofWord (BitVec.ofNat 32 (v / 2 ^ (32 * j)))).toArray, by simp⟩

/-- `DigestInt()` of the words of H: the sum of H[i] · 2^(32(7 − i)), so H[0] is the most significant word (R66, R144). -/
def digestInt (h : List Word) : Nat := intOf h.reverse

/-- The words of MSG that SHA_FINAL r consumes: the first ceil(r/4) (R117, R207). -/
def finalWords (msg : Vector DataWord 16) (r : Nat) : List DataWord := msg.toList.take ((r + 3) / 4)

/-! ### The operands of a state -/

/-- int(N) (R13). -/
def State.nInt (s : State) : Nat := intOf (valuesOf s.n.toList)

/-- int(E) (R13). -/
def State.eInt (s : State) : Nat := intOf (valuesOf s.e.toList)

/-- int(B) (R13). -/
def State.bInt (s : State) : Nat := intOf (valuesOf s.b.toList)

/-- int(R) (R13). -/
def State.rInt (s : State) : Nat := intOf (valuesOf s.r.toList)

/-- DigestInt() (R144). -/
def State.digest (s : State) : Nat := digestInt (valuesOf s.h.toList)

end Sys2Proof.Machine
end

