-- ==== Sys2Proof/Machine/Rsa.lean ====
section
/-! DEFINITION. The RSA unit (42_rsa.md): the modular exponentiation datapath, the key check, and the commands RSA_MODEXP,
RSA_SIGN and RSA_VERIFY. Arithmetic is exact arithmetic on natural numbers (R140). -/

namespace Sys2Proof.Machine

open Sys2Proof

/-- The number of bits of x, 0 for 0 (R143). -/
def bitLength (x : Nat) : Nat := if x = 0 then 0 else x.log2 + 1

/-- The bits i − 1 down to 0 of x still to do, with accumulator `acc` (R143). -/
def modExpLoop (base x n : Nat) : Nat → Nat → Nat
  | 0, acc => acc
  | i + 1, acc =>
    modExpLoop base x n i (if x.testBit i then ((acc * acc) % n * base) % n else (acc * acc) % n)

/-- `ModExp(b, x, n)` by the reference datapath of R143: left-to-right square and multiply. Its result is (b^x) mod n (R142). -/
def modExp (b x n : Nat) : Nat := modExpLoop (b % n) x n (bitLength x) (1 % n)

/-- `KeyOK(n, x)`: n odd and 1 < x < n (R145). -/
def keyOk (n x : Nat) : Bool := decide (n % 2 = 1) && decide (1 < x) && decide (x < n)

/-- RSA_MODEXP (R146). -/
def execRsaModexp (s : State) : Result :=
  .next (
    if s.nInt = 0 then raiseError .modZero s
    else complete (s.setR (toReg (modExp s.bInt s.eInt s.nInt))))

/-- The digest reduced for signing: `if h ≥ n then h mod n` (R147). -/
def reduceDigest (h n : Nat) : Nat := if n ≤ h then h % n else h

/-- RSA_SIGN (R147). -/
def execRsaSign (s : State) : Result :=
  .next (
    if s.digestValid = false then raiseError .noDigest s
    else if keyOk s.nInt s.eInt = false then raiseError .keyInvalid s
    else complete (s.setR (toReg (modExp (reduceDigest s.digest s.nInt) s.eInt s.nInt))))

/-- The updates of RSA_VERIFY on a valid key and a signature in range: R is the recovered value and VERIFY_OK says whether it
is the reduced digest (R148). -/
def verifyUpdate (s : State) : State :=
  let recovered := modExp s.bInt s.eInt s.nInt
  (s.setR (toReg recovered)).setVerifyOk (decide (s.digest % s.nInt = recovered))

/-- RSA_VERIFY (R148). The range check comes before any exponentiation. -/
def execRsaVerify (s : State) : Result :=
  .next (
    if s.digestValid = false then raiseVerifyError .noDigest s
    else if keyOk s.nInt s.eInt = false then raiseVerifyError .keyInvalid s
    else if s.nInt ≤ s.bInt then raiseVerifyError .invalidSignature s
    else complete (verifyUpdate s))

end Sys2Proof.Machine
end

