-- ==== Sys2Proof/Machine/Sha256.lean ====
section
/-! DEFINITION. The SHA-256 unit (41_sha256.md): logical functions, constants, message schedule expander, round function,
compression, accumulator, padding unit, and the commands SHA_INIT, SHA_BLOCK and SHA_FINAL. Every addition of words is
`+32` (R100). -/

namespace Sys2Proof.Machine

open Sys2Proof

/-! ### Logical functions -/

/-- `ROTR(x, n)`, 0 < n < 32 (R11). -/
def rotr (x : Word) (n : Nat) : Word := (x >>> n) ||| (x <<< (32 - n))

/-- `SHR(x, n)` (R11). -/
def shr (x : Word) (n : Nat) : Word := x >>> n

/-- `Ch` (R101). -/
def ch (x y z : Word) : Word := (x &&& y) ^^^ (~~~x &&& z)

/-- `Maj` (R102). -/
def maj (x y z : Word) : Word := (x &&& y) ^^^ (x &&& z) ^^^ (y &&& z)

/-- `Σ0` (R103). -/
def bigSigma0 (x : Word) : Word := rotr x 2 ^^^ rotr x 13 ^^^ rotr x 22

/-- `Σ1` (R104). -/
def bigSigma1 (x : Word) : Word := rotr x 6 ^^^ rotr x 11 ^^^ rotr x 25

/-- `σ0`: the last term is a shift (R105). -/
def smallSigma0 (x : Word) : Word := rotr x 7 ^^^ rotr x 18 ^^^ shr x 3

/-- `σ1`: the last term is a shift (R106). -/
def smallSigma1 (x : Word) : Word := rotr x 17 ^^^ rotr x 19 ^^^ shr x 10

/-! ### Constants -/

/-- The 64 round constants K[0..63] (R108). -/
def roundConstants : List Word :=
  [0x428A2F98#32, 0x71374491#32, 0xB5C0FBCF#32, 0xE9B5DBA5#32, 0x3956C25B#32, 0x59F111F1#32, 0x923F82A4#32, 0xAB1C5ED5#32]
    ++ [0xD807AA98#32, 0x12835B01#32, 0x243185BE#32, 0x550C7DC3#32, 0x72BE5D74#32, 0x80DEB1FE#32, 0x9BDC06A7#32, 0xC19BF174#32]
    ++ [0xE49B69C1#32, 0xEFBE4786#32, 0x0FC19DC6#32, 0x240CA1CC#32, 0x2DE92C6F#32, 0x4A7484AA#32, 0x5CB0A9DC#32, 0x76F988DA#32]
    ++ [0x983E5152#32, 0xA831C66D#32, 0xB00327C8#32, 0xBF597FC7#32, 0xC6E00BF3#32, 0xD5A79147#32, 0x06CA6351#32, 0x14292967#32]
    ++ [0x27B70A85#32, 0x2E1B2138#32, 0x4D2C6DFC#32, 0x53380D13#32, 0x650A7354#32, 0x766A0ABB#32, 0x81C2C92E#32, 0x92722C85#32]
    ++ [0xA2BFE8A1#32, 0xA81A664B#32, 0xC24B8B70#32, 0xC76C51A3#32, 0xD192E819#32, 0xD6990624#32, 0xF40E3585#32, 0x106AA070#32]
    ++ [0x19A4C116#32, 0x1E376C08#32, 0x2748774C#32, 0x34B0BCB5#32, 0x391C0CB3#32, 0x4ED8AA4A#32, 0x5B9CCA4F#32, 0x682E6FF3#32]
    ++ [0x748F82EE#32, 0x78A5636F#32, 0x84C87814#32, 0x8CC70208#32, 0x90BEFFFA#32, 0xA4506CEB#32, 0xBEF9A3F7#32, 0xC67178F2#32]

/-- The eight words a, b, c, d, e, f, g, h of a hash state or of the working variables (R110, R111). -/
structure Vars where
  a : Word
  b : Word
  c : Word
  d : Word
  e : Word
  f : Word
  g : Word
  h : Word
deriving DecidableEq, Repr

/-- The initial hash values IV[0..7] (R107). -/
def initialHash : Vars where
  a := 0x6A09E667#32
  b := 0xBB67AE85#32
  c := 0x3C6EF372#32
  d := 0xA54FF53A#32
  e := 0x510E527F#32
  f := 0x9B05688C#32
  g := 0x1F83D9AB#32
  h := 0x5BE0CD19#32

/-- Hash words H[0..7] as the eight variables (R111). -/
def varsOfWords (ws : List Word) : Vars where
  a := ws.getD 0 0#32
  b := ws.getD 1 0#32
  c := ws.getD 2 0#32
  d := ws.getD 3 0#32
  e := ws.getD 4 0#32
  f := ws.getD 5 0#32
  g := ws.getD 6 0#32
  h := ws.getD 7 0#32

/-- The eight variables in the order of H[0..7]. -/
def wordsOfVars (v : Vars) : List Word := [v.a, v.b, v.c, v.d, v.e, v.f, v.g, v.h]

/-- The hash state in H[0..7]. -/
def State.hashVars (s : State) : Vars := varsOfWords (valuesOf s.h.toList)

/-- H[0..7] after a command wrote all of it (R38). -/
def hashRegister (v : Vars) : Vector DataWord 8 :=
  #v[.ofWord v.a, .ofWord v.b, .ofWord v.c, .ofWord v.d, .ofWord v.e, .ofWord v.f, .ofWord v.g, .ofWord v.h]

/-! ### Schedule, round, compression -/

/-- The next schedule word: with t = the number of words so far, σ1(W[t−2]) + W[t−7] + σ0(W[t−15]) + W[t−16] (R109). -/
def nextScheduleWord (w : List Word) : Word :=
  smallSigma1 (w.getD (w.length - 2) 0#32) + w.getD (w.length - 7) 0#32
    + smallSigma0 (w.getD (w.length - 15) 0#32) + w.getD (w.length - 16) 0#32

/-- Append `k` schedule words (R109). -/
def extendSchedule : Nat → List Word → List Word
  | 0, w => w
  | k + 1, w => extendSchedule k (w ++ [nextScheduleWord w])

/-- `Schedule(M[0..15])`: W[0..63] (R109). -/
def schedule (m : List Word) : List Word := extendSchedule 48 m

/-- `Round(t, vars, w)` with k = K[t] (R110). -/
def round (v : Vars) (k w : Word) : Vars :=
  let t1 := v.h + bigSigma1 v.e + ch v.e v.f v.g + k + w
  let t2 := bigSigma0 v.a + maj v.a v.b v.c
  { a := t1 + t2, b := v.a, c := v.b, d := v.c, e := v.d + t1, f := v.e, g := v.f, h := v.g }

/-- The rounds in order, one per pair (K[t], W[t]) (R111). -/
def rounds (v : Vars) (kws : List (Word × Word)) : Vars := kws.foldl (fun v kw => round v kw.1 kw.2) v

/-- `Accumulate(Hin, vars)` (R112). -/
def accumulate (hin v : Vars) : Vars where
  a := hin.a + v.a
  b := hin.b + v.b
  c := hin.c + v.c
  d := hin.d + v.d
  e := hin.e + v.e
  f := hin.f + v.f
  g := hin.g + v.g
  h := hin.h + v.h

/-- `Compress(Hin, M)`: schedule, 64 rounds, accumulate (R111). -/
def compress (hin : Vars) (m : List Word) : Vars :=
  accumulate hin (rounds hin (roundConstants.zip (schedule m)))

/-! ### Padding -/

/-- How many zero bytes stand between the 0x80 byte and the length (R114; 90_conflicts.md C1). -/
def padZeros (r : Nat) : Nat := if r ≤ 55 then 55 - r else 119 - r

/-- The padded tail: the last r message bytes, 0x80, zeros, the bit length big-endian (R114). -/
def padBytes (p : List Byte) (len : BitVec 64) : List Byte :=
  p ++ [0x80#8] ++ List.replicate (padZeros p.length) 0x00#8 ++ be64 len

/-- Cut words into `k` blocks of 16 (R114). -/
def blocksOf : Nat → List Word → List (List Word)
  | 0, _ => []
  | k + 1, ws => ws.take 16 :: blocksOf k (ws.drop 16)

/-- How many blocks `Pad` gives (R114). -/
def padBlockCount (r : Nat) : Nat := if r ≤ 55 then 1 else 2

/-- `Pad(p, L)`: one block if r ≤ 55, else two (R114). -/
def pad (p : List Byte) (len : BitVec 64) : List (List Word) :=
  blocksOf (padBlockCount p.length) (wordsOfBytes (padBytes p len))

/-- Compress blocks in order (R117). -/
def absorb (h : Vars) (blocks : List (List Word)) : Vars := blocks.foldl compress h

/-! ### The whole hash, as a function of the message -/

/-- The 64-byte blocks of the first 64·k bytes, as words (R119). -/
def fullBlocks : Nat → List Byte → List (List Word)
  | 0, _ => []
  | k + 1, m => wordsOfBytes (m.take 64) :: fullBlocks k (m.drop 64)

/-- `Hfin` of R119: Compress folded over the full blocks and then over `Pad` of the rest, from IV. -/
def hashOf (m : List Byte) : Vars :=
  absorb (absorb initialHash (fullBlocks (m.length / 64) m))
    (pad (m.drop (64 * (m.length / 64))) (BitVec.ofNat 64 (8 * m.length)))

/-! ### Commands -/

/-- `LEN + 512 > 2^64 − 1` (R116, R174). -/
def lenOverflows (len : BitVec 64) : Bool := decide (2 ^ 64 - 1 < len.toNat + 512)

/-- SHA_INIT (R115). -/
def execShaInit (s : State) : Result :=
  .next (complete ((s.setHash (hashRegister initialHash) 0#64).setShaFlags true false))

/-- SHA_BLOCK (R116). -/
def execShaBlock (s : State) : Result :=
  .next (
    if s.shaActive = false then raiseError .sequence s
    else if lenOverflows s.len then raiseError .lenOverflow s
    else complete (s.setHash (hashRegister (compress s.hashVars (valuesOf s.msg.toList))) (s.len + 512#64)))

/-- The updates of SHA_FINAL r: H is the digest of the blocks padded from the first r bytes of MSG, and LEN, SHA_ACTIVE and
DIGEST_VALID follow (R117). The sum LEN + 8r is below 2^64 in every state a run reaches (log 11). -/
def finalUpdate (r : Nat) (s : State) : State :=
  let len := s.len + BitVec.ofNat 64 (8 * r)
  let p := (bytesOfWords (valuesOf (finalWords s.msg r))).take r
  (s.setHash (hashRegister (absorb s.hashVars (pad p len))) len).setShaFlags false true

/-- SHA_FINAL r (R117). A count above 63 has no command word (R82; log 16). -/
def execShaFinal (r : Nat) (s : State) : Result :=
  if 63 < r then .refused (.notEncodable "SHA_FINAL")
  else .next (if s.shaActive = false then raiseError .sequence s else complete (finalUpdate r s))

end Sys2Proof.Machine
end

