-- ==== Sys2Proof/Machine/Dispatch.lean ====
section
/-! DEFINITION. `exec`: the completion of one decoded command, one arm per constructor of `Instr` (30_encoding.md R88). -/

namespace Sys2Proof.Machine

open Sys2Proof

def exec (i : Instr) (s : State) : Host.Outcome State Fault Refusal :=
  match i with
  | .shaInit => Sys2Proof.Machine.execShaInit s
  | .shaBlock => Sys2Proof.Machine.execShaBlock s
  | .shaFinal r => Sys2Proof.Machine.execShaFinal r s
  | .rsaModexp => Sys2Proof.Machine.execRsaModexp s
  | .rsaSign => Sys2Proof.Machine.execRsaSign s
  | .rsaVerify => Sys2Proof.Machine.execRsaVerify s

end Sys2Proof.Machine
end

