-- ==== Sys2Proof/WellFormed.lean ====
section
/-! DEFINITION. Which commands can be written as a command word (30_encoding.md R81, R82): the byte count of SHA_FINAL
fits the 6-bit NB field. -/

namespace Sys2Proof

/-- The command has an encoding: `r` is 0 to 63 for SHA_FINAL (R82); nothing is asked of the others. -/
def Instr.wellFormed : Instr → Bool
  | .shaInit => true
  | .shaBlock => true
  | .shaFinal r => decide (r ≤ 63)
  | .rsaModexp => true
  | .rsaSign => true
  | .rsaVerify => true

end Sys2Proof
end

