-- ==== Sys2Proof/Decode.lean ====
section
/-! DEFINITION. The decoder of command words, total on every 32-bit word and rejecting by name, and the encoder
(30_encoding.md R80 to R86). Decoding reads the word alone: no mode or state changes it (R86). -/

namespace Sys2Proof

/-- Why a command word is illegal (R84). -/
inductive DecodeError where
  /-- OP is not one of 0x01, 0x02, 0x03, 0x10, 0x11, 0x12 (R85). -/
  | reservedOp (op : BitVec 8)
  /-- RSV, bits 31:14, is not 0. -/
  | reservedBits (rsv : BitVec 18)
  /-- NB, bits 13:8, is not 0 and OP is not SHA_FINAL's. -/
  | byteCount (nb : BitVec 6)
deriving DecidableEq, Repr

/-- OP, bits 7:0 (R81). -/
def opField (v : Word) : BitVec 8 := v.extractLsb' 0 8

/-- NB, bits 13:8 (R81). -/
def nbField (v : Word) : BitVec 6 := v.extractLsb' 8 6

/-- RSV, bits 31:14 (R81). -/
def rsvField (v : Word) : BitVec 18 := v.extractLsb' 14 18

/-- The command an opcode selects, given the byte count in NB (R83). -/
def ofOpcode (op : BitVec 8) (nb : BitVec 6) : Option Instr :=
  if op = 0x01#8 then some .shaInit
  else if op = 0x02#8 then some .shaBlock
  else if op = 0x03#8 then some (.shaFinal nb.toNat)
  else if op = 0x10#8 then some .rsaModexp
  else if op = 0x11#8 then some .rsaSign
  else if op = 0x12#8 then some .rsaVerify
  else none

/-- Decode a command word; illegal exactly as R84 says. -/
def decode (v : Word) : Except DecodeError Instr :=
  match ofOpcode (opField v) (nbField v) with
  | none => .error (.reservedOp (opField v))
  | some i =>
    if rsvField v ≠ 0#18 then .error (.reservedBits (rsvField v))
    else if nbField v ≠ 0#6 ∧ opField v ≠ 0x03#8 then .error (.byteCount (nbField v))
    else .ok i

/-- The opcode of a command (R83). -/
def opcodeOf : Instr → BitVec 8
  | .shaInit => 0x01#8
  | .shaBlock => 0x02#8
  | .shaFinal _ => 0x03#8
  | .rsaModexp => 0x10#8
  | .rsaSign => 0x11#8
  | .rsaVerify => 0x12#8

/-- The NB field of a command: the byte count for SHA_FINAL, 0 otherwise (R81). -/
def byteCountOf : Instr → BitVec 6
  | .shaInit => 0#6
  | .shaBlock => 0#6
  | .shaFinal r => BitVec.ofNat 6 r
  | .rsaModexp => 0#6
  | .rsaSign => 0#6
  | .rsaVerify => 0#6

/-- The command word of a command: RSV = 0, NB, OP from the top (R81). -/
def encode (i : Instr) : Word := 0#18 ++ byteCountOf i ++ opcodeOf i

/-- The `match` column of the opcode table: the command word with NB = 0 (R83). -/
def tableMatch : Instr → Word
  | .shaInit => 0x00000001#32
  | .shaBlock => 0x00000002#32
  | .shaFinal _ => 0x00000003#32
  | .rsaModexp => 0x00000010#32
  | .rsaSign => 0x00000011#32
  | .rsaVerify => 0x00000012#32

/-- The `mask` column of the opcode table (R83). -/
def tableMask : Instr → Word
  | .shaInit => 0xFFFFFFFF#32
  | .shaBlock => 0xFFFFFFFF#32
  | .shaFinal _ => 0xFFFFC0FF#32
  | .rsaModexp => 0xFFFFFFFF#32
  | .rsaSign => 0xFFFFFFFF#32
  | .rsaVerify => 0xFFFFFFFF#32

/-- The word `v` selects the table row of `i` (R83). -/
abbrev selects (v : Word) (i : Instr) : Prop := v &&& tableMask i = tableMatch i

/-- The decoder on a word numbered as the opcode table numbers its bits: a command word is one 32-bit bus value whose bit n
is bit n of CMD (R64, R80), and bits from `nbits` up are 0. -/
def decodeTableWord (nbits w : Nat) : Option Instr :=
  match decode (BitVec.ofNat 32 (w % 2 ^ nbits)) with
  | .ok i => some i
  | .error _ => none

end Sys2Proof
end

