-- ==== Sys2Proof/Machine/Bus.lean ====
section
/-! DEFINITION. The register window: what each host access does (20_memory.md R50 to R63). -/

namespace Sys2Proof.Machine

open Sys2Proof

/-- The register at an aligned offset, none where the window is unmapped (R39, R51). -/
def windowReg (off : Nat) : Option WindowReg :=
  if off = 0x0000 then some .id
  else if off = 0x0004 then some .cfg
  else if off = 0x0008 then some .ctrl
  else if off = 0x000C then some .status
  else if off = 0x0010 then some .cmd
  else if off = 0x0014 then some .lenLo
  else if off = 0x0018 then some .lenHi
  else if h : 0x0040 ≤ off ∧ off < 0x0080 then some (.msg ⟨(off - 0x0040) / 4, by omega⟩)
  else if h : 0x0080 ≤ off ∧ off < 0x00A0 then some (.h ⟨(off - 0x0080) / 4, by omega⟩)
  else if h : 0x1000 ≤ off ∧ off < 0x1200 then some (.n ⟨(off - 0x1000) / 4, by omega⟩)
  else if h : 0x1200 ≤ off ∧ off < 0x1400 then some (.e ⟨(off - 0x1200) / 4, by omega⟩)
  else if h : 0x1400 ≤ off ∧ off < 0x1600 then some (.b ⟨(off - 0x1400) / 4, by omega⟩)
  else if h : 0x1600 ≤ off ∧ off < 0x1800 then some (.r ⟨(off - 0x1600) / 4, by omega⟩)
  else none

/-- The offset of a register (R39). -/
def offsetOf : WindowReg → Nat
  | .id => 0x0000
  | .cfg => 0x0004
  | .ctrl => 0x0008
  | .status => 0x000C
  | .cmd => 0x0010
  | .lenLo => 0x0014
  | .lenHi => 0x0018
  | .msg i => 0x0040 + 4 * i.val
  | .h i => 0x0080 + 4 * i.val
  | .n j => 0x1000 + 4 * j.val
  | .e j => 0x1200 + 4 * j.val
  | .b j => 0x1400 + 4 * j.val
  | .r j => 0x1600 + 4 * j.val

/-- Find the register an access of width `w` at offset `off` reaches and go on with it. Outside the window it is no access
to the engine (log 7); any width but 32 bits, a misaligned or an unmapped offset is a bus error (R52 to R54). -/
def onRegister (w : Width) (off : Nat) (k : WindowReg → Result) : Result :=
  if 0x2000 ≤ off then .refused (.outsideWindow off)
  else if w ≠ .w32 then .fault (.busError .width off)
  else if off % 4 ≠ 0 then .fault (.busError .misaligned off)
  else match windowReg off with
    | none => .fault (.busError .unmapped off)
    | some reg => k reg

/-- The host gets the value `v`: it lands in the accumulator (R90). -/
def returnWord (v : Word) (s : State) : Result := .next (s.setAcc v)

/-- An `ANY` read: a fresh unspecified value (R55, R63; log 3). -/
def returnAny (s : State) : Result := returnWord (Config.anyRead s.draws) s.countDraw

/-- What a read of a register returns (R55). A data word gives the value it holds, an unwritten one an unspecified value (R38;
log 1); LEN, H and R are unspecified while BUSY = 1 (R63). -/
def readReg (reg : WindowReg) (s : State) : Result :=
  match reg with
  | .id => returnWord Config.idWord s
  | .cfg => returnWord Config.cfgWord s
  | .ctrl => returnWord (ctrlWord s) s
  | .status => returnWord (statusWord s) s
  | .cmd => returnWord 0#32 s
  | .lenLo => if s.busy then returnAny s else returnWord (s.len.extractLsb' 0 32) s
  | .lenHi => if s.busy then returnAny s else returnWord (s.len.extractLsb' 32 32) s
  | .msg i => returnWord s.msg[i].value s
  | .h i => if s.busy then returnAny s else returnWord s.h[i].value s
  | .n j => returnWord s.n[j].value s
  | .e j => returnWord s.e[j].value s
  | .b j => returnWord s.b[j].value s
  | .r j => if s.busy then returnAny s else returnWord s.r[j].value s

/-- A write that takes effect only while the engine is idle; while busy it is ignored and sets WERR (R61). -/
def whenIdle (s s' : State) : State := if s.busy then s.setWerr else s'

/-- What a write of `v` to a register does (R56). -/
def writeReg (reg : WindowReg) (v : Word) (s : State) : State :=
  match reg with
  | .ctrl => s.writeCtrl v
  | .status => s.writeStatus v
  | .cmd => whenIdle s (s.issue v)
  | .msg i => whenIdle s (s.setMsgWord i v)
  | .n j => whenIdle s (s.setNWord j v)
  | .e j => whenIdle s (s.setEWord j v)
  | .b j => whenIdle s (s.setBWord j v)
  | .id => s.setWerr
  | .cfg => s.setWerr
  | .lenLo => s.setWerr
  | .lenHi => s.setWerr
  | .h _ => s.setWerr
  | .r _ => s.setWerr

/-- `BusRead(BASE + off, w)` (R55). -/
def busRead (w : Width) (off : Nat) (s : State) : Result := onRegister w off fun reg => readReg reg s

/-- `BusWrite(BASE + off, w, v)` (R56). -/
def busWrite (w : Width) (off : Nat) (v : Word) (s : State) : Result :=
  onRegister w off fun reg => .next (writeReg reg v s)

/-- An access at bus address `addr`, that is at offset `addr − BASE` (R51); below BASE it is no access to the engine. -/
def atAddress (addr : Nat) (k : Nat → Result) : Result :=
  if addr < Config.base then .refused (.outsideWindow addr) else k (addr - Config.base)

/-- One access of the host at a bus address (R51). -/
def busAccess (a : Access) (s : State) : Result :=
  match a with
  | .read w addr => atAddress addr fun off => busRead w off s
  | .write w addr v => atAddress addr fun off => busWrite w off v s

end Sys2Proof.Machine
end

