-- ==== Sys2Proof/Machine/HostAgent.lean ====
section
/-! DEFINITION. The host agent and its program notation (30_encoding.md R90, R91). -/

namespace Sys2Proof.Machine

open Sys2Proof

/-- Execute one statement of the host program (R90). WR and RD fall through to the next statement; HALT stays where it is. -/
def execStmt (st : Stmt) (s : State) : Result :=
  match st with
  | .wr off imm => busWrite .w32 off imm (s.setPc (s.host.pc + 1))
  | .rd off => busRead .w32 off (s.setPc (s.host.pc + 1))
  | .bnz mask target => .next (s.setPc (if s.host.acc &&& mask ≠ 0#32 then target else s.host.pc + 1))
  | .bz mask target => .next (s.setPc (if s.host.acc &&& mask = 0#32 then target else s.host.pc + 1))
  | .halt => .next s

/-- The host's move: its next statement, or nothing where its program has no statement left (R90; log 5). -/
def hostStep (s : State) : Result :=
  match s.host.prog[s.host.pc]? with
  | none => .next s
  | some st => execStmt st s

/-! ### Pseudo-instructions (R91) -/

/-- `CMD i`: write the command word of `i` to CMD. -/
def stmtCmd (i : Instr) : List Stmt := [.wr (offsetOf .cmd) (encode i)]

/-- `WAIT` placed at statement `at_`: read STATUS until BUSY = 0. -/
def stmtWait (at_ : Nat) : List Stmt := [.rd (offsetOf .status), .bnz 0x1#32 at_]

/-- `CLR`: clear DONE and WERR. -/
def stmtClr : List Stmt := [.wr (offsetOf .status) 0x00000006#32]

/-- `LDMSG s`, at most 64 bytes: the bytes packed big-endian, bytes past the end 0x00. -/
def stmtLdmsg (bytes : List Byte) : List Stmt :=
  (wordsOfBytes (bytes ++ List.replicate ((4 - bytes.length % 4) % 4) 0x00#8)).mapIdx fun i w => .wr (0x0040 + 4 * i) w

/-- `LDBIG X, v` with X at offset `base`: 128 words, least significant first. -/
def stmtLdbig (base v : Nat) : List Stmt :=
  (List.range 128).map fun j => .wr (base + 4 * j) (BitVec.ofNat 32 (v / 2 ^ (32 * j)))

/-- `RDBIG X` with X at offset `base`. -/
def stmtRdbig (base : Nat) : List Stmt := (List.range 128).map fun j => .rd (base + 4 * j)

/-- `RDDIG`: the eight words of H. -/
def stmtRddig : List Stmt := (List.range 8).map fun i => .rd (0x0080 + 4 * i)

/-- `CHKERR label`: go to `target` if ERR ≠ 0. -/
def stmtChkerr (target : Nat) : List Stmt := [.rd (offsetOf .status), .bnz 0xF00#32 target]

end Sys2Proof.Machine
end

