-- ==== Sys2Proof/Machine/Engine.lean ====
section
/-! DEFINITION. The moves of the machine: the engine's completion step (30_encoding.md R88), the host's and the platform's
moves, and which one comes next (log 4). -/

namespace Sys2Proof.Machine

open Sys2Proof

/-- Complete the command word in CUR: a legal one by its meaning, any other with ILLEGAL_CMD (R84, R88, R172). -/
def completeCur (s : State) : Result :=
  match decode s.cur with
  | .ok i => exec i s
  | .error _ => .next (raiseError .illegalCmd s)

/-- The engine's move: the completion of the command in flight; an idle engine has no step (R88, R204). -/
def engineStep (s : State) : Result := if s.busy then completeCur s else .next s

/-- One move (R16). -/
def takeTurn (t : Turn) (s : State) : Result :=
  match t with
  | .engine => engineStep s
  | .host => hostStep s
  | .bus a => busAccess a s
  | .reset => .next s.resetEngine

/-- Whose move is next: the oldest planned one; where none is planned, a busy engine completes (R210) and otherwise the
host goes on (log 4). -/
def nextTurn (s : State) : Turn :=
  match s.turns with
  | t :: _ => t
  | [] => if s.busy then .engine else .host

/-- Make the next move; a planned one is used up. -/
def runStep (s : State) : Result := takeTurn (nextTurn s) (s.setTurns s.turns.tail)

/-- Put a command word in flight, its completion being the very next move (R87; log 12). -/
def placeCommand (v : Word) (s : State) : State := (s.issue v).setTurns (.engine :: s.turns)

end Sys2Proof.Machine
end

