-- ==== Sys2Proof/Machine/Step.lean ====
section
/-! DEFINITION. The step of the machine, and the state whose next step runs a given command word. -/

namespace Sys2Proof.Machine

open Sys2Proof

/-- One step: one move of one agent (00_scope.md R16). -/
def step (s : State) : Host.Outcome State Fault Refusal := Sys2Proof.Machine.runStep s

/-- `s` with the command word `w` (bits from `nbits` up 0) issued and its completion next. The engine fetches nothing: a
command is what the host wrote to CMD, held in CUR (R72, R87), so this stands for that write (log 12). -/
def State.withFetchWord (s : State) (nbits w : Nat) : State :=
  Sys2Proof.Machine.placeCommand (BitVec.ofNat 32 (w % 2 ^ nbits)) s

end Sys2Proof.Machine
end

