-- ==== Sys2Proof/Safety.lean ====
section
/-! DEFINITION. The terms the claims use: written and unwritten words and what they hold (10_state R38), the words a command
consumes (70 R207), the result code the check order gives (60 R179), and the invariants of the engine. -/

namespace Sys2Proof.Machine

open Sys2Proof

/-- Every word is written (R38). -/
def allWritten (ws : List DataWord) : Bool := ws.all (·.written)

/-- No word is written (R38). -/
def allUnwritten (ws : List DataWord) : Bool := ws.all fun w => !w.written

/-- What the words of the register at offset `base` hold after `resets` platform resets: a written word its value, an
unwritten one an unspecified value (R38; log 1). -/
def heldWords (resets base : Nat) (ws : List DataWord) : List Word :=
  ws.mapIdx fun k d => if d.written then d.value else Config.unwrittenWord resets (base + 4 * k)

/-- Every data word holds what it has held since the last reset or since it was written (R38, R55; log 1). -/
structure UnwrittenInv (s : State) : Prop where
  msg : valuesOf s.msg.toList = heldWords s.resets 0x0040 s.msg.toList
  h : valuesOf s.h.toList = heldWords s.resets 0x0080 s.h.toList
  n : valuesOf s.n.toList = heldWords s.resets 0x1000 s.n.toList
  e : valuesOf s.e.toList = heldWords s.resets 0x1200 s.e.toList
  b : valuesOf s.b.toList = heldWords s.resets 0x1400 s.b.toList
  r : valuesOf s.r.toList = heldWords s.resets 0x1600 s.r.toList

/-- Two lists of data words agree where words are written: the same words are written, and those hold the same values. -/
def agreeWhereWritten (ws vs : List DataWord) : Bool :=
  ws.map (·.written) == vs.map (·.written) && (ws.zip vs).all fun p => !p.1.written || p.1.value == p.2.value

/-- Two states that differ at most in the values of unwritten data words (R38). -/
structure AgreeWhereWritten (s s' : State) : Prop where
  msg : agreeWhereWritten s.msg.toList s'.msg.toList = true
  h : agreeWhereWritten s.h.toList s'.h.toList = true
  n : agreeWhereWritten s.n.toList s'.n.toList = true
  e : agreeWhereWritten s.e.toList s'.e.toList = true
  b : agreeWhereWritten s.b.toList s'.b.toList = true
  r : agreeWhereWritten s.r.toList s'.r.toList = true
  others : s' = { s with msg := s'.msg, h := s'.h, n := s'.n, e := s'.e, b := s'.b, r := s'.r }

/-- The host has done its duty of R207: every data word of MSG, N, E and B that the command consumes when it runs without
error is written. H is not asked for: the invariant gives it (I2). -/
def operandsWritten : Instr → State → Bool
  | .shaInit, _ => true
  | .shaBlock, s => allWritten s.msg.toList
  | .shaFinal r, s => allWritten (finalWords s.msg r)
  | .rsaModexp, s => allWritten s.n.toList && allWritten s.e.toList && allWritten s.b.toList
  | .rsaSign, s => allWritten s.n.toList && allWritten s.e.toList
  | .rsaVerify, s => allWritten s.n.toList && allWritten s.e.toList && allWritten s.b.toList

/-- The one code a legal command reports: the first that applies, in the order of R179. -/
def resultCode : Instr → State → ErrCode
  | .shaInit, _ => .ok
  | .shaBlock, s =>
    if s.shaActive = false then .sequence else if 2 ^ 64 - 1 < s.len.toNat + 512 then .lenOverflow else .ok
  | .shaFinal _, s => if s.shaActive = false then .sequence else .ok
  | .rsaModexp, s => if s.nInt = 0 then .modZero else .ok
  | .rsaSign, s =>
    if s.digestValid = false then .noDigest
    else if ¬ (s.nInt % 2 = 1 ∧ 1 < s.eInt ∧ s.eInt < s.nInt) then .keyInvalid else .ok
  | .rsaVerify, s =>
    if s.digestValid = false then .noDigest
    else if ¬ (s.nInt % 2 = 1 ∧ 1 < s.eInt ∧ s.eInt < s.nInt) then .keyInvalid
    else if s.nInt ≤ s.bInt then .invalidSignature else .ok

/-- Put the bytes of a message chunk into MSG, packed big-endian, bytes past the end 0x00 (R64, LDMSG of R91): ceil(len/4)
words are written, the others keep what they hold. -/
def loadBytes (bs : List Byte) (s : State) : State :=
  { s with
    msg := Vector.ofFn fun i : Fin 16 =>
      if 4 * i.val < bs.length then
        .ofWord (be32 (bs.getD (4 * i.val) 0#8) (bs.getD (4 * i.val + 1) 0#8) (bs.getD (4 * i.val + 2) 0#8)
          (bs.getD (4 * i.val + 3) 0#8))
      else s.msg[i] }

/-- Go on from the next state. -/
def andThen (x : Result) (k : State → Result) : Result :=
  match x with
  | .next s => k s
  | .fault f => .fault f
  | .refused f => .refused f

/-- Load and absorb `k` full blocks (R119). -/
def hashBlocks : Nat → List Byte → State → Result
  | 0, _, s => .next s
  | k + 1, m, s => andThen (exec .shaBlock (loadBytes (m.take 64) s)) (hashBlocks k (m.drop 64))

/-- The command sequence of R119 for the message `m`, each command waited for. -/
def hashCommands (m : List Byte) (s : State) : Result :=
  andThen (exec .shaInit s) fun s =>
  andThen (hashBlocks (m.length / 64) m s) fun s =>
  exec (.shaFinal (m.length % 64)) (loadBytes (m.drop (64 * (m.length / 64))) s)

/-- n is prime: at least 2 and divisible by no number from 2 to n − 1 (R107, R108). -/
def isPrime (n : Nat) : Bool := Nat.ble 2 n && (List.range n).all fun d => Nat.blt d 2 || !(n % d == 0)

/-- The primes up to 311, the 64th, in increasing order (R108). -/
def firstPrimes : List Nat := (List.range 312).filter isPrime

/-- The command is one of the RSA unit's. -/
def isRsa : Instr → Bool
  | .shaInit => false
  | .shaBlock => false
  | .shaFinal _ => false
  | .rsaModexp => true
  | .rsaSign => true
  | .rsaVerify => true

/-- What holds of the engine in every state a run from reset reaches. -/
structure EngineInv (s : State) : Prop where
  /-- SHA_ACTIVE = 1 implies DIGEST_VALID = 0 (R25). -/
  exclusive : s.shaActive = true → s.digestValid = false
  /-- A message in progress or a finished digest implies that H was written (I2). -/
  hashWritten : s.shaActive = true ∨ s.digestValid = true → allWritten s.h.toList = true
  /-- H is written whole (SHA_INIT writes all 8 words) or not at all (R38). -/
  hashWhole : allWritten s.h.toList = true ∨ allUnwritten s.h.toList = true
  /-- R is written whole or not at all (R38). -/
  resultWhole : allWritten s.r.toList = true ∨ allUnwritten s.r.toList = true
  /-- LEN is a multiple of 512 while SHA_ACTIVE = 1 (R116). -/
  lenBlocks : s.shaActive = true → s.len.toNat % 512 = 0
  /-- LEN counts whole bytes (D7). -/
  lenBytes : s.len.toNat % 8 = 0
  /-- Result codes 0x8 to 0xF are never produced (R171, I7). -/
  errProduced : s.err.toNat ≤ 7
  /-- VERIFY_OK = 1 implies that an RSA command has written R (R28, R38). -/
  verifyWritten : s.verifyOk = true → allWritten s.r.toList = true

end Sys2Proof.Machine
end

