-- ==== Sys2Proof/Certificates/Slice0/Obligations.lean ====
section
/-! DEFINITION. The statements for the provers, each citing the rules of spec/ it formalises. A data word written with the
value `v` is `DataWord.ofWord v`; `valuesOf` gives the values data words hold, written or not: an unwritten word holds an unspecified
value (R38), a free value of the model (log 1), so a statement that reads one says what holds whatever that value is. -/

open Sys2Proof Sys2Proof.Machine

/-! ### Command words -/

/-- R81, R83: decoding the command word of a well-formed command gives the command back. -/
def Obligations.DecodeEncodeRoundTrip : Prop :=
  ∀ i : Instr, i.wellFormed = true → decode (encode i) = .ok i

/-- R81, R82, R83: a word that decodes is the command word of the command it decodes to, and that command is well-formed. -/
def Obligations.DecodedWordEncodesBack : Prop :=
  ∀ (v : Word) (i : Instr), decode v = .ok i → i.wellFormed = true ∧ encode i = v

/-- R83, R84: a word decodes exactly when it matches a row of the table, it decodes to that row's command, and at most one
row matches any word. -/
def Obligations.LegalExactlyWhenRowMatches : Prop :=
  ∀ v : Word,
    ((∃ i, decode v = .ok i) ↔ ∃ i : Instr, selects v i)
    ∧ (∀ i, decode v = .ok i → selects v i)
    ∧ ∀ i j : Instr, selects v i → selects v j → tableMatch i = tableMatch j ∧ tableMask i = tableMask j

/-- R92: the worked encodings, legal and illegal. -/
def Obligations.WorkedCommandWords : Prop :=
  decode 0x00000001#32 = .ok .shaInit ∧ decode 0x00000002#32 = .ok .shaBlock
  ∧ decode 0x00000003#32 = .ok (.shaFinal 0) ∧ decode 0x00000303#32 = .ok (.shaFinal 3)
  ∧ decode 0x00003703#32 = .ok (.shaFinal 55) ∧ decode 0x00003803#32 = .ok (.shaFinal 56)
  ∧ decode 0x00003F03#32 = .ok (.shaFinal 63)
  ∧ decode 0x00000010#32 = .ok .rsaModexp ∧ decode 0x00000011#32 = .ok .rsaSign
  ∧ decode 0x00000012#32 = .ok .rsaVerify
  ∧ decode 0x00000000#32 = .error (.reservedOp 0x00#8) ∧ decode 0x00000004#32 = .error (.reservedOp 0x04#8)
  ∧ decode 0x00000101#32 = .error (.byteCount 1#6) ∧ decode 0x00004003#32 = .error (.reservedBits 1#18)
  ∧ decode 0x80000010#32 = .error (.reservedBits 0x20000#18)

/-- R84, R172: a word is illegal exactly when its OP is none of the six, RSV ≠ 0, or NB ≠ 0 and OP ≠ 0x03, equivalently when
it matches no row; it is accepted at issue; and it completes with ILLEGAL_CMD and changes nothing but ERR, DONE and BUSY. -/
def Obligations.IllegalWordReportsIllegalCmd : Prop :=
  ∀ v : Word,
    ((∃ x, decode v = .error x) ↔
      (opField v ≠ 0x01#8 ∧ opField v ≠ 0x02#8 ∧ opField v ≠ 0x03#8 ∧ opField v ≠ 0x10#8 ∧ opField v ≠ 0x11#8
        ∧ opField v ≠ 0x12#8)
      ∨ rsvField v ≠ 0#18 ∨ (nbField v ≠ 0#6 ∧ opField v ≠ 0x03#8))
    ∧ ((∃ x, decode v = .error x) ↔ ∀ i : Instr, ¬ selects v i)
    ∧ (∀ s : State, s.busy = false → busWrite .w32 0x0010 v s = .next { s with cur := v, busy := true })
    ∧ ∀ s : State, (∃ x, decode v = .error x) → nextTurn s = .engine → s.busy = true → s.cur = v →
        step s = .next { s with turns := s.turns.tail, err := 0x1#4, done := true, busy := false }

/-! ### Issue, the step, completion -/

/-- R88: when the engine moves with a legal command word in CUR, the step is `exec` of the decoded command; the planned move
is used up. An idle engine has no step of its own. -/
def Obligations.StepRunsDecodedCommand : Prop :=
  (∀ (s : State) (i : Instr), nextTurn s = .engine → s.busy = true → decode s.cur = .ok i →
    step s = exec i { s with turns := s.turns.tail })
  ∧ ∀ s : State, nextTurn s = .engine → s.busy = false → step s = .next { s with turns := s.turns.tail }

/-- The model's order of moves (log 4): the oldest planned move comes next; where none is planned, a busy engine moves and
otherwise the host does; and the move made is that one. -/
def Obligations.PlannedMoveComesNext : Prop :=
  (∀ (s : State) (t : Turn) (ts : List Turn), s.turns = t :: ts → step s = takeTurn t { s with turns := ts })
  ∧ (∀ s : State, s.turns = [] → s.busy = true → step s = engineStep s)
  ∧ ∀ s : State, s.turns = [] → s.busy = false → step s = hostStep s

/-- R87: a write of any word to CMD while BUSY = 0 sets CUR and BUSY and changes nothing else; while BUSY = 1 it is no issue:
it is ignored and sets WERR, so no command is queued. -/
def Obligations.CmdWriteIssues : Prop :=
  ∀ (s : State) (v : Word),
    (s.busy = false → busWrite .w32 0x0010 v s = .next { s with cur := v, busy := true })
    ∧ (s.busy = true → busWrite .w32 0x0010 v s = .next { s with werr := true })

/-- R87: writing the command word of a well-formed command to CMD of an idle engine issues it; the step after runs that command
on the state as it was issued. That the engine's completion is the very next move is the model's choice where no move is
planned (log 4, DESIGN CHOICE): R88 lets it happen at any later time. -/
def Obligations.IssuedCommandRuns : Prop :=
  ∀ (s : State) (i : Instr), i.wellFormed = true → s.busy = false → s.turns = [] →
    ∃ u, busWrite .w32 0x0010 (encode i) s = .next u ∧ u = { s with cur := encode i, busy := true } ∧ step u = exec i u

/-- R88, R38: a well-formed command completes from every state, whatever is written or unwritten: DONE = 1, BUSY = 0, ERR the
code its checks give, and no fault. -/
def Obligations.CommandCompletesFromEveryState : Prop :=
  ∀ (i : Instr) (s : State), i.wellFormed = true →
    ∃ t, exec i s = .next t ∧ t.done = true ∧ t.busy = false ∧ t.err = (resultCode i s).code

/-- R179: one code is reported, the first that applies: ILLEGAL_CMD from the word alone, then the command's own checks in
the order of the rule. -/
def Obligations.FirstApplicableErrorIsReported : Prop :=
  (∀ (i : Instr) (s t : State), exec i s = .next t → t.err = (resultCode i s).code)
  ∧ ∀ s t : State, nextTurn s = .engine → s.busy = true → step s = .next t →
      t.err = match decode s.cur with
        | .error _ => ErrCode.illegalCmd.code
        | .ok i => (resultCode i s).code

/-- R180: a command that ends with an error, an illegal word or a legal command, changes ERR, DONE and BUSY, and VERIFY_OK to
0 if it is RSA_VERIFY; nothing else. -/
def Obligations.ErrorCompletionIsPrecise : Prop :=
  (∀ (i : Instr) (s t : State), exec i s = .next t → t.err ≠ 0x0#4 →
    t = { s with
      err := (resultCode i s).code, done := true, busy := false,
      verifyOk := if i = .rsaVerify then false else s.verifyOk })
  ∧ ∀ (s t : State), (∃ x, decode s.cur = .error x) → completeCur s = .next t →
      t = { s with err := ErrCode.illegalCmd.code, done := true, busy := false }

/-! ### The SHA-256 unit -/

/-- R101, R102: Ch chooses y where x has a 1 and z where x has a 0; Maj is the majority of the three bits. -/
def Obligations.ChooseAndMajorityBitwise : Prop :=
  ∀ (x y z : Word) (i : Nat), i < 32 →
    (ch x y z).getLsbD i = (if x.getLsbD i then y.getLsbD i else z.getLsbD i)
    ∧ (maj x y z).getLsbD i
        = decide (2 ≤ (x.getLsbD i).toNat + (y.getLsbD i).toNat + (z.getLsbD i).toNat)

/-- R103 to R106: the four sigma functions by bits. Bit i of ROTR(x, n) is bit (i + n) mod 32 of x; bit i of SHR(x, n) is bit
i + n of x, and 0 past bit 31. -/
def Obligations.SigmaFunctionsBitwise : Prop :=
  ∀ (x : Word) (i : Nat), i < 32 →
    (bigSigma0 x).getLsbD i
        = ((x.getLsbD ((i + 2) % 32) ^^ x.getLsbD ((i + 13) % 32)) ^^ x.getLsbD ((i + 22) % 32))
    ∧ (bigSigma1 x).getLsbD i
        = ((x.getLsbD ((i + 6) % 32) ^^ x.getLsbD ((i + 11) % 32)) ^^ x.getLsbD ((i + 25) % 32))
    ∧ (smallSigma0 x).getLsbD i
        = ((x.getLsbD ((i + 7) % 32) ^^ x.getLsbD ((i + 18) % 32)) ^^ (decide (i + 3 < 32) && x.getLsbD (i + 3)))
    ∧ (smallSigma1 x).getLsbD i
        = ((x.getLsbD ((i + 17) % 32) ^^ x.getLsbD ((i + 19) % 32)) ^^ (decide (i + 10 < 32) && x.getLsbD (i + 10)))

/-- R107, R108: IV[i] is isqrt(p_i · 2^64) mod 2^32 for the first 8 primes and K[t] is icbrt(p_t · 2^96) mod 2^32 for the first
64, the last of which is 311. -/
def Obligations.ConstantsAreRootFractions : Prop :=
  firstPrimes.length = 64 ∧ firstPrimes.getLast? = some 311
  ∧ (wordsOfVars initialHash).length = 8 ∧ roundConstants.length = 64
  ∧ (∀ i p : Nat, i < 8 → firstPrimes[i]? = some p →
      ∃ q, q ^ 2 ≤ p * 2 ^ 64 ∧ p * 2 ^ 64 < (q + 1) ^ 2 ∧ (wordsOfVars initialHash)[i]? = some (BitVec.ofNat 32 q))
  ∧ ∀ t p : Nat, firstPrimes[t]? = some p →
      ∃ q, q ^ 3 ≤ p * 2 ^ 96 ∧ p * 2 ^ 96 < (q + 1) ^ 3 ∧ roundConstants[t]? = some (BitVec.ofNat 32 q)

/-- R109: the schedule has 64 words, the first 16 are the block's, and each later one is the recurrence. -/
def Obligations.ScheduleRecurrence : Prop :=
  ∀ m : List Word, m.length = 16 →
    (schedule m).length = 64
    ∧ (∀ t, t < 16 → (schedule m)[t]? = m[t]?)
    ∧ ∀ t, 16 ≤ t → t < 64 →
        (schedule m)[t]? = some (smallSigma1 ((schedule m).getD (t - 2) 0#32) + (schedule m).getD (t - 7) 0#32
          + smallSigma0 ((schedule m).getD (t - 15) 0#32) + (schedule m).getD (t - 16) 0#32)

/-- R110, R111, R112: the working variables start at Hin, each of the 64 rounds maps them by T1 and T2, and the result adds
them to Hin word by word. -/
def Obligations.CompressionRunsSixtyFourRounds : Prop :=
  ∀ (hin : Vars) (m : List Word) (v : Nat → Vars), m.length = 16 → v 0 = hin →
    (∀ t, t < 64 →
      v (t + 1) =
        { a := ((v t).h + bigSigma1 (v t).e + ch (v t).e (v t).f (v t).g + roundConstants.getD t 0#32
              + (schedule m).getD t 0#32) + (bigSigma0 (v t).a + maj (v t).a (v t).b (v t).c)
          b := (v t).a, c := (v t).b, d := (v t).c
          e := (v t).d + ((v t).h + bigSigma1 (v t).e + ch (v t).e (v t).f (v t).g + roundConstants.getD t 0#32
              + (schedule m).getD t 0#32)
          f := (v t).e, g := (v t).f, h := (v t).g }) →
    compress hin m =
      { a := hin.a + (v 64).a, b := hin.b + (v 64).b, c := hin.c + (v 64).c, d := hin.d + (v 64).d
        e := hin.e + (v 64).e, f := hin.f + (v 64).f, g := hin.g + (v 64).g, h := hin.h + (v 64).h }

/-- R114: the padded tail of r ≤ 63 bytes is one block if r ≤ 55 and two otherwise: the message bytes, 0x80, zeros, the bit
length big-endian in the last 8 bytes; the blocks are its words, 16 each. -/
def Obligations.PaddingFollowsRule : Prop :=
  ∀ (p : List Byte) (len : BitVec 64), p.length ≤ 63 →
    ∃ nblk, nblk = (if p.length ≤ 55 then 1 else 2)
      ∧ (padBytes p len).length = 64 * nblk
      ∧ (∀ k, k < p.length → (padBytes p len)[k]? = p[k]?)
      ∧ (padBytes p len)[p.length]? = some 0x80#8
      ∧ (∀ k, p.length < k → k < 64 * nblk - 8 → (padBytes p len)[k]? = some 0x00#8)
      ∧ (∀ k, k < 8 → (padBytes p len)[64 * nblk - 8 + k]? = some (len.extractLsb' (56 - 8 * k) 8))
      ∧ (pad p len).length = nblk
      ∧ ∀ j, j < nblk → ((pad p len).getD j []).length = 16 ∧ ∀ i, i < 16 →
          ((pad p len).getD j [])[i]? = some (be32
            ((padBytes p len).getD (64 * j + 4 * i) 0#8) ((padBytes p len).getD (64 * j + 4 * i + 1) 0#8)
            ((padBytes p len).getD (64 * j + 4 * i + 2) 0#8) ((padBytes p len).getD (64 * j + 4 * i + 3) 0#8))

/-- R115: SHA_INIT, command word 0x00000001, completes from every state: H is the IV of R107, every word written, LEN = 0,
SHA_ACTIVE = 1, DIGEST_VALID = 0, no error, and nothing else changes (MSG is not cleared). -/
def Obligations.ShaInitFollowsRule : Prop :=
  encode .shaInit = 0x00000001#32
  ∧ ∀ s : State, exec .shaInit s = .next { s with
    h := #v[.ofWord 0x6A09E667#32, .ofWord 0xBB67AE85#32, .ofWord 0x3C6EF372#32, .ofWord 0xA54FF53A#32,
            .ofWord 0x510E527F#32, .ofWord 0x9B05688C#32, .ofWord 0x1F83D9AB#32, .ofWord 0x5BE0CD19#32],
    len := 0#64, shaActive := true, digestValid := false, err := 0x0#4, done := true, busy := false }

/-- R116: SHA_BLOCK, command word 0x00000002. With a message in progress and room in LEN it completes: H is the compression of
MSG into H and LEN grows by 512. It reports SEQUENCE when no message is in progress and LEN_OVERFLOW when LEN + 512 would
exceed 2^64 − 1, whatever MSG holds; while LEN is a multiple of 512 the only such LEN is 2^64 − 512. -/
def Obligations.ShaBlockFollowsRule : Prop :=
  encode .shaBlock = 0x00000002#32
  ∧ ∀ s : State,
    (s.shaActive = true → s.len.toNat + 512 ≤ 2 ^ 64 - 1 →
      exec .shaBlock s = .next { s with
        h := hashRegister (compress (varsOfWords (valuesOf s.h.toList)) (valuesOf s.msg.toList)),
        len := s.len + 512#64, err := 0x0#4, done := true, busy := false })
    ∧ (s.shaActive = false → exec .shaBlock s = .next { s with err := 0x2#4, done := true, busy := false })
    ∧ (s.shaActive = true → 2 ^ 64 - 1 < s.len.toNat + 512 →
        exec .shaBlock s = .next { s with err := 0x3#4, done := true, busy := false })
    ∧ (s.len.toNat % 512 = 0 → (2 ^ 64 - 1 < s.len.toNat + 512 ↔ s.len.toNat = 2 ^ 64 - 512))

/-- R117: SHA_FINAL r, command word 0x00000003 + (r << 8). With a message in progress it completes: `p` is the list of the
first r bytes of MSG, p[k] = byte_(k mod 4)(MSG[floor(k/4)]); H is the compression of the blocks of Pad(p, LEN + 8r), LEN
grows by 8r, SHA_ACTIVE = 0, DIGEST_VALID = 1. Without a message in progress it reports SEQUENCE. From a state that meets the invariant LEN + 8r stays below 2^64, so LEN_OVERFLOW is never raised. In states that no
run reaches, where LEN + 8r would pass 2^64 − 1, the second clause gives the wrapped sum: the model's choice (log 11, DESIGN
CHOICE). -/
def Obligations.ShaFinalFollowsRule : Prop :=
  (∀ r : Nat, r ≤ 63 → (encode (.shaFinal r)).toNat = 3 + r * 2 ^ 8)
  ∧ (∀ (s : State) (r : Nat) (p : List Byte), r ≤ 63 → s.shaActive = true →
      p.length = r → (∀ k, k < r → p[k]? = some (byteOf (k % 4) ((valuesOf s.msg.toList).getD (k / 4) 0#32))) →
      exec (.shaFinal r) s = .next { s with
        h := hashRegister ((pad p (s.len + BitVec.ofNat 64 (8 * r))).foldl compress (varsOfWords (valuesOf s.h.toList))),
        len := s.len + BitVec.ofNat 64 (8 * r), shaActive := false, digestValid := true,
        err := 0x0#4, done := true, busy := false })
  ∧ (∀ (s : State) (r : Nat), r ≤ 63 → s.shaActive = false →
      exec (.shaFinal r) s = .next { s with err := 0x2#4, done := true, busy := false })
  ∧ ∀ (s t : State) (r : Nat), EngineInv s → s.shaActive = true → exec (.shaFinal r) s = .next t →
      t.err = 0x0#4 ∧ t.len.toNat = s.len.toNat + 8 * r

/-- R117 (corner cases): the bytes of MSG past byte r − 1 do not matter: with another MSG whose first r bytes are the same,
SHA_FINAL r gives the same state but for MSG. -/
def Obligations.ShaFinalIgnoresLaterBytes : Prop :=
  ∀ (s t : State) (r : Nat) (msg : Vector DataWord 16), exec (.shaFinal r) s = .next t →
    (∀ k, k < r → byteOf (k % 4) ((valuesOf msg.toList).getD (k / 4) 0#32)
      = byteOf (k % 4) ((valuesOf s.msg.toList).getD (k / 4) 0#32)) →
    exec (.shaFinal r) { s with msg := msg } = .next { t with msg := msg }

/-- R66, R118, R144: the digest integer is the sum of H[i] · 2^(32(7 − i)), below 2^256; digest byte k is byte_(k mod 4) of
H[floor(k/4)], and the integer is those 32 bytes read big-endian. -/
def Obligations.DigestIntegerIsBigEndian : Prop :=
  ∀ h : List Word, h.length = 8 →
    digestInt h = ∑ i ∈ Finset.range 8, (h.getD i 0#32).toNat * 2 ^ (32 * (7 - i))
    ∧ digestInt h < 2 ^ 256
    ∧ (∀ k, k < 32 → (bytesOfWords h)[k]? = some (byteOf (k % 4) (h.getD (k / 4) 0#32)))
    ∧ digestInt h = ∑ k ∈ Finset.range 32, ((bytesOfWords h).getD k 0#8).toNat * 2 ^ (8 * (31 - k))

/-- R119: for a message of fewer than 2^61 bytes, SHA_INIT, a SHA_BLOCK per full block and SHA_FINAL complete from every
state and leave the hash of the message in H, its bit length in LEN, and DIGEST_VALID = 1. -/
def Obligations.CommandSequenceHashesMessage : Prop :=
  ∀ (m : List Byte) (s : State), m.length < 2 ^ 61 →
    ∃ t, hashCommands m s = .next t ∧ allWritten t.h.toList = true
      ∧ valuesOf t.h.toList = wordsOfVars (hashOf m) ∧ t.len.toNat = 8 * m.length
      ∧ t.digestValid = true ∧ t.shaActive = false ∧ t.err = 0x0#4

/-! ### The RSA unit -/

/-- R142: ModExp(b, x, n) is (b^x) mod n for n ≥ 1, with its corner cases. -/
def Obligations.ModExpIsModularPower : Prop :=
  ∀ b x n : Nat, 1 ≤ n →
    modExp b x n = b ^ x % n
    ∧ modExp b 0 n = 1 % n
    ∧ (1 ≤ x → modExp 0 x n = 0)
    ∧ modExp b x 1 = 0
    ∧ modExp b x n = modExp (b % n) x n

/-- R13: int(X) is the sum of X[j] · 2^(32j); word j of toReg(v) is floor(v / 2^(32j)) mod 2^32; and toReg loses nothing below
2^4096. -/
def Obligations.OperandIntegersAndWords : Prop :=
  (∀ ws : List Word, intOf ws = ∑ j ∈ Finset.range ws.length, (ws.getD j 0#32).toNat * 2 ^ (32 * j))
  ∧ (∀ (v : Nat) (j : Fin 128),
      (toReg v)[j].written = true ∧ (toReg v)[j].value.toNat = v / 2 ^ (32 * j.val) % 2 ^ 32)
  ∧ ∀ v : Nat, v < 2 ^ 4096 → intOf (valuesOf (toReg v).toList) = v

/-- R146: RSA_MODEXP, command word 0x00000010, completes from every state: R is int(B)^int(E) mod int(N), or MOD_ZERO if
int(N) = 0. -/
def Obligations.RsaModexpFollowsRule : Prop :=
  encode .rsaModexp = 0x00000010#32
  ∧ ∀ s : State,
    (s.nInt ≠ 0 → exec .rsaModexp s = .next { s with
      r := toReg (s.bInt ^ s.eInt % s.nInt), err := 0x0#4, done := true, busy := false })
    ∧ (s.nInt = 0 → exec .rsaModexp s = .next { s with err := 0x5#4, done := true, busy := false })

/-- R147: RSA_SIGN, command word 0x00000011. With a digest and a valid key it completes: R is (DigestInt() mod n)^d mod n. It
reports NO_DIGEST without a digest, whatever N and E hold, and KEY_INVALID when KeyOK fails. -/
def Obligations.RsaSignFollowsRule : Prop :=
  encode .rsaSign = 0x00000011#32
  ∧ ∀ s : State,
    (s.digestValid = true → s.nInt % 2 = 1 → 1 < s.eInt → s.eInt < s.nInt →
      exec .rsaSign s = .next { s with
        r := toReg ((s.digest % s.nInt) ^ s.eInt % s.nInt), err := 0x0#4, done := true, busy := false })
    ∧ (s.digestValid = false → exec .rsaSign s = .next { s with err := 0x4#4, done := true, busy := false })
    ∧ (s.digestValid = true → ¬ (s.nInt % 2 = 1 ∧ 1 < s.eInt ∧ s.eInt < s.nInt) →
        exec .rsaSign s = .next { s with err := 0x6#4, done := true, busy := false })

/-- R148: RSA_VERIFY, command word 0x00000012. With a digest, a valid key and a signature in range it completes: R is the
recovered value s^e mod n and VERIFY_OK says whether it is DigestInt() mod n. It reports NO_DIGEST, then KEY_INVALID, then
INVALID_SIGNATURE when int(B) ≥ int(N); each time VERIFY_OK = 0 and R keeps its value. -/
def Obligations.RsaVerifyFollowsRule : Prop :=
  encode .rsaVerify = 0x00000012#32
  ∧ ∀ s : State,
    (s.digestValid = true → s.nInt % 2 = 1 → 1 < s.eInt → s.eInt < s.nInt → s.bInt < s.nInt →
      exec .rsaVerify s = .next { s with
        r := toReg (s.bInt ^ s.eInt % s.nInt),
        verifyOk := decide (s.digest % s.nInt = s.bInt ^ s.eInt % s.nInt),
        err := 0x0#4, done := true, busy := false })
    ∧ (s.digestValid = false →
      exec .rsaVerify s = .next { s with verifyOk := false, err := 0x4#4, done := true, busy := false })
    ∧ (s.digestValid = true → ¬ (s.nInt % 2 = 1 ∧ 1 < s.eInt ∧ s.eInt < s.nInt) →
        exec .rsaVerify s = .next { s with verifyOk := false, err := 0x6#4, done := true, busy := false })
    ∧ (s.digestValid = true → s.nInt % 2 = 1 → 1 < s.eInt → s.eInt < s.nInt → s.nInt ≤ s.bInt →
        exec .rsaVerify s = .next { s with verifyOk := false, err := 0x7#4, done := true, busy := false })

/-- R149: when RSA_VERIFY completes, the signature is accepted (ERR = 0 and VERIFY_OK = 1) exactly when there is a digest, the
key is valid, the signature is in range and the recovered value is the reduced digest; a mismatch of a signature in range
completes with ERR = 0 and VERIFY_OK = 0. -/
def Obligations.VerifyAcceptsExactlyOnMatch : Prop :=
  (∀ s t : State, exec .rsaVerify s = .next t →
    ((t.err = 0x0#4 ∧ t.verifyOk = true) ↔
      (s.digestValid = true ∧ (s.nInt % 2 = 1 ∧ 1 < s.eInt ∧ s.eInt < s.nInt) ∧ s.bInt < s.nInt
        ∧ s.digest % s.nInt = s.bInt ^ s.eInt % s.nInt)))
  ∧ ∀ s : State, s.digestValid = true → s.nInt % 2 = 1 → 1 < s.eInt → s.eInt < s.nInt → s.bInt < s.nInt →
      s.digest % s.nInt ≠ s.bInt ^ s.eInt % s.nInt →
      ∃ t, exec .rsaVerify s = .next t ∧ t.err = 0x0#4 ∧ t.verifyOk = false

/-- R141: after an RSA command without error every word of R is written and int(R) < int(N). -/
def Obligations.RsaResultBelowModulus : Prop :=
  ∀ (i : Instr) (s t : State), isRsa i = true → exec i s = .next t → t.err = 0x0#4 →
    allWritten t.r.toList = true ∧ t.rInt < s.nInt

/-- R150: the RSA commands are functions of N, E and B and, but for RSA_MODEXP, of H and DIGEST_VALID; none changes an operand
register, H or the SHA state; and repeating one with no write in between gives the same R, VERIFY_OK and ERR. -/
def Obligations.RsaCommandsArePure : Prop :=
  ∀ (i : Instr) (s t : State), isRsa i = true → exec i s = .next t →
    (t.n = s.n ∧ t.e = s.e ∧ t.b = s.b ∧ t.h = s.h ∧ t.len = s.len ∧ t.shaActive = s.shaActive
      ∧ t.digestValid = s.digestValid)
    ∧ exec i t = .next t
    ∧ ∀ s' : State, s'.n = s.n → s'.e = s.e → s'.b = s.b →
        (i ≠ .rsaModexp → s'.h = s.h ∧ s'.digestValid = s.digestValid) →
        ∃ t', exec i s' = .next t' ∧ t'.err = t.err ∧ (t.err = 0x0#4 → t'.r = t.r)
          ∧ (i = .rsaVerify → t'.verifyOk = t.verifyOk)

/-- R151: for n = p·q with distinct odd primes and e·d ≡ 1 mod (p−1)(q−1), signing with d and verifying the result with e on
the same digest accepts; and signatures with one key multiply. -/
def Obligations.SignThenVerifyAccepts : Prop :=
  (∀ (s : State) (p q e d : Nat), p.Prime → q.Prime → p ≠ q → p % 2 = 1 → q % 2 = 1 →
    e * d % ((p - 1) * (q - 1)) = 1 → 1 < e → e < p * q → 1 < d → d < p * q →
    s.nInt = p * q → s.eInt = d → s.digestValid = true →
    ∃ t, exec .rsaSign s = .next t ∧ t.err = 0x0#4
      ∧ t.rInt = modExp (s.digest % s.nInt) d s.nInt ∧ t.rInt < s.nInt ∧
      ∀ u : State, u.n = t.n → u.h = t.h → u.digestValid = t.digestValid → u.eInt = e → u.bInt = t.rInt →
        ∃ v, exec .rsaVerify u = .next v ∧ v.err = 0x0#4 ∧ v.verifyOk = true)
  ∧ ∀ h1 h2 d n : Nat, 1 ≤ n → modExp h1 d n * modExp h2 d n % n = modExp (h1 * h2 % n) d n

/-! ### Frames -/

/-- R20, R26, R32, R34, R75: no command writes MSG, N, E, B, CTRL or WERR, nor CUR or anything outside the engine. -/
def Obligations.CommandsLeaveOperandsAndHost : Prop :=
  ∀ (i : Instr) (s t : State), exec i s = .next t →
    t.msg = s.msg ∧ t.n = s.n ∧ t.e = s.e ∧ t.b = s.b ∧ t.ie = s.ie ∧ t.werr = s.werr ∧ t.cur = s.cur
    ∧ t.host = s.host ∧ t.turns = s.turns ∧ t.draws = s.draws ∧ t.resets = s.resets

/-- R115 to R117: the SHA commands leave the RSA unit (R, VERIFY_OK) alone; SHA_BLOCK leaves SHA_ACTIVE and DIGEST_VALID. -/
def Obligations.ShaCommandsLeaveRsaUnit : Prop :=
  ∀ (i : Instr) (s t : State), isRsa i = false → exec i s = .next t →
    t.r = s.r ∧ t.verifyOk = s.verifyOk
    ∧ (i = .shaBlock → t.shaActive = s.shaActive ∧ t.digestValid = s.digestValid)

/-- R146 to R148, R28: the RSA commands leave the SHA unit (H, LEN, SHA_ACTIVE, DIGEST_VALID) alone; only RSA_VERIFY writes
VERIFY_OK. -/
def Obligations.RsaCommandsLeaveShaUnit : Prop :=
  ∀ (i : Instr) (s t : State), isRsa i = true → exec i s = .next t →
    t.h = s.h ∧ t.len = s.len ∧ t.shaActive = s.shaActive ∧ t.digestValid = s.digestValid
    ∧ (i ≠ .rsaVerify → t.verifyOk = s.verifyOk)

/-! ### Unwritten words -/

/-- R38: a command that consumes an unwritten word computes with an unspecified value. From a state that meets `UnwrittenInv`,
SHA_BLOCK, SHA_FINAL, RSA_MODEXP, RSA_SIGN and RSA_VERIFY complete and compute with `heldWords`: the value of each written
word and, for each unwritten one, the unspecified value `Config.unwrittenWord` at the platform resets so far and the word's
offset. That this value stays the same from the reset to the word's first write is the model's reading of "holds" (log 1,
DESIGN CHOICE). -/
def Obligations.CommandsComputeWithUnspecifiedWords : Prop :=
  ∀ s : State, UnwrittenInv s →
    (s.shaActive = true → s.len.toNat + 512 ≤ 2 ^ 64 - 1 →
      exec .shaBlock s = .next { s with
        h := hashRegister (compress (varsOfWords (heldWords s.resets 0x0080 s.h.toList))
          (heldWords s.resets 0x0040 s.msg.toList)),
        len := s.len + 512#64, err := 0x0#4, done := true, busy := false })
    ∧ (∀ (r : Nat) (p : List Byte), r ≤ 63 → s.shaActive = true → p.length = r →
      (∀ k, k < r → p[k]? = some (byteOf (k % 4) ((heldWords s.resets 0x0040 s.msg.toList).getD (k / 4) 0#32))) →
      exec (.shaFinal r) s = .next { s with
        h := hashRegister ((pad p (s.len + BitVec.ofNat 64 (8 * r))).foldl compress
          (varsOfWords (heldWords s.resets 0x0080 s.h.toList))),
        len := s.len + BitVec.ofNat 64 (8 * r), shaActive := false, digestValid := true,
        err := 0x0#4, done := true, busy := false })
    ∧ ∀ n e b d : Nat, n = intOf (heldWords s.resets 0x1000 s.n.toList) →
      e = intOf (heldWords s.resets 0x1200 s.e.toList) → b = intOf (heldWords s.resets 0x1400 s.b.toList) →
      d = digestInt (heldWords s.resets 0x0080 s.h.toList) →
      (n ≠ 0 → exec .rsaModexp s = .next { s with
        r := toReg (b ^ e % n), err := 0x0#4, done := true, busy := false })
      ∧ (n = 0 → exec .rsaModexp s = .next { s with err := 0x5#4, done := true, busy := false })
      ∧ (s.digestValid = true → n % 2 = 1 → 1 < e → e < n → exec .rsaSign s = .next { s with
        r := toReg ((d % n) ^ e % n), err := 0x0#4, done := true, busy := false })
      ∧ (s.digestValid = true → n % 2 = 1 → 1 < e → e < n → b < n → exec .rsaVerify s = .next { s with
        r := toReg (b ^ e % n), verifyOk := decide (d % n = b ^ e % n), err := 0x0#4, done := true, busy := false })

/-- R207, R38, I2: a host that has written every data word a command consumes gets an outcome that depends on no unspecified
value: from two states that differ at most in the values of unwritten words, the command completes in two states that differ
at most in the values of unwritten words. -/
def Obligations.WrittenOperandsDetermineOutcome : Prop :=
  ∀ (i : Instr) (s s' : State), EngineInv s → i.wellFormed = true → operandsWritten i s = true →
    AgreeWhereWritten s s' →
    ∃ t t', exec i s = .next t ∧ exec i s' = .next t' ∧ AgreeWhereWritten t t'

/-- R38, R57: an accepted write of a word of MSG, N, E or B makes that word written with the value and leaves the other words
of the register as they are. -/
def Obligations.AcceptedWriteMakesWordWritten : Prop :=
  ∀ (s : State) (v : Word), s.busy = false →
    (∀ i : Fin 16, ∃ t, busWrite .w32 (0x0040 + 4 * i.val) v s = .next t ∧ t.msg[i] = .ofWord v
      ∧ ∀ k : Fin 16, k ≠ i → t.msg[k] = s.msg[k])
    ∧ (∀ j : Fin 128, ∃ t, busWrite .w32 (0x1000 + 4 * j.val) v s = .next t ∧ t.n[j] = .ofWord v
      ∧ ∀ k : Fin 128, k ≠ j → t.n[k] = s.n[k])
    ∧ (∀ j : Fin 128, ∃ t, busWrite .w32 (0x1200 + 4 * j.val) v s = .next t ∧ t.e[j] = .ofWord v
      ∧ ∀ k : Fin 128, k ≠ j → t.e[k] = s.e[k])
    ∧ ∀ j : Fin 128, ∃ t, busWrite .w32 (0x1400 + 4 * j.val) v s = .next t ∧ t.b[j] = .ofWord v
      ∧ ∀ k : Fin 128, k ≠ j → t.b[k] = s.b[k]

/-! ### The register window -/

/-- R39, R51, R67: an aligned offset reaches a register exactly when it is that register's offset, so no register is reachable
at two offsets; 543 words of the window are mapped. -/
def Obligations.WindowMapsEachRegisterOnce : Prop :=
  (∀ (off : Nat) (reg : WindowReg), off % 4 = 0 → (windowReg off = some reg ↔ off = offsetOf reg))
  ∧ ((List.range 2048).filter fun k => (windowReg (4 * k)).isSome).length = 543

/-- R52, R53: inside the window, an access of another width than 32 bits, a misaligned one and one to an unmapped offset are
bus errors, reads and writes alike. Where two causes apply, which one the fault names, the width before the alignment and
the alignment before the unmapped offset, is the model's choice (log 8, DESIGN CHOICE). -/
def Obligations.BadAccessIsBusError : Prop :=
  ∀ (w : Width) (off : Nat) (v : Word) (s : State), off < 0x2000 →
    (w ≠ .w32 → busRead w off s = .fault (.busError .width off) ∧ busWrite w off v s = .fault (.busError .width off))
    ∧ (w = .w32 → off % 4 ≠ 0 →
        busRead w off s = .fault (.busError .misaligned off) ∧ busWrite w off v s = .fault (.busError .misaligned off))
    ∧ (w = .w32 → off % 4 = 0 →
        (0x001C ≤ off ∧ off ≤ 0x003C) ∨ (0x00A0 ≤ off ∧ off ≤ 0x0FFC) ∨ (0x1800 ≤ off ∧ off ≤ 0x1FFC) →
        busRead w off s = .fault (.busError .unmapped off) ∧ busWrite w off v s = .fault (.busError .unmapped off))

/-- R51: an access to bus address BASE + off is the access to offset off, and BASE, whose value the model leaves free (log 6),
is a multiple of 0x2000 (R50). -/
def Obligations.BusAddressIsBasePlusOffset : Prop :=
  Config.base % 0x2000 = 0
  ∧ ∀ (w : Width) (off : Nat) (v : Word) (s : State),
      busAccess (.read w (Config.base + off)) s = busRead w off s
      ∧ busAccess (.write w (Config.base + off) v) s = busWrite w off v s

/-- R55, R63, R38: what a read of each register returns to the host: constants, CTRL, STATUS and CMD at any time; LEN, H and R
their values while idle and a fresh unspecified value while busy (the free value of log 3); MSG, N, E and B the values their
words hold, written or not, at any time. The value read lands in the accumulator (log 5). -/
def Obligations.RegisterReadValues : Prop :=
  ∀ s : State,
    busRead .w32 0x0000 s = .next (s.setAcc 0x53485253#32)
    ∧ busRead .w32 0x0004 s = .next (s.setAcc 0x00010080#32)
    ∧ busRead .w32 0x0008 s = .next (s.setAcc (if s.ie then 1#32 else 0#32))
    ∧ busRead .w32 0x000C s = .next (s.setAcc (statusWord s))
    ∧ busRead .w32 0x0010 s = .next (s.setAcc 0#32)
    ∧ (s.busy = false → busRead .w32 0x0014 s = .next (s.setAcc (s.len.extractLsb' 0 32)))
    ∧ (s.busy = false → busRead .w32 0x0018 s = .next (s.setAcc (s.len.extractLsb' 32 32)))
    ∧ (∀ i : Fin 16, busRead .w32 (0x0040 + 4 * i.val) s = .next (s.setAcc s.msg[i].value))
    ∧ (∀ i : Fin 8, s.busy = false → busRead .w32 (0x0080 + 4 * i.val) s = .next (s.setAcc s.h[i].value))
    ∧ (∀ j : Fin 128, busRead .w32 (0x1000 + 4 * j.val) s = .next (s.setAcc s.n[j].value))
    ∧ (∀ j : Fin 128, busRead .w32 (0x1200 + 4 * j.val) s = .next (s.setAcc s.e[j].value))
    ∧ (∀ j : Fin 128, busRead .w32 (0x1400 + 4 * j.val) s = .next (s.setAcc s.b[j].value))
    ∧ (∀ j : Fin 128, s.busy = false → busRead .w32 (0x1600 + 4 * j.val) s = .next (s.setAcc s.r[j].value))
    ∧ ∀ off : Nat, s.busy = true →
        off = 0x0014 ∨ off = 0x0018 ∨ (∃ i : Fin 8, off = 0x0080 + 4 * i.val)
          ∨ (∃ j : Fin 128, off = 0x1600 + 4 * j.val) →
        busRead .w32 off s = .next ({ s with draws := s.draws + 1 }.setAcc (Config.anyRead s.draws))

/-- R38: a host read of an unwritten data word returns an unspecified value: from a state that meets `UnwrittenInv`, the free
value `Config.unwrittenWord` at the platform resets so far and the offset read (log 1, DESIGN CHOICE in its form); of H and R,
while the engine is idle. -/
def Obligations.ReadingUnwrittenWordIsUnspecified : Prop :=
  ∀ s : State, UnwrittenInv s →
    (∀ i : Fin 16, s.msg[i].written = false →
        busRead .w32 (0x0040 + 4 * i.val) s = .next (s.setAcc (Config.unwrittenWord s.resets (0x0040 + 4 * i.val))))
    ∧ (∀ i : Fin 8, s.busy = false → s.h[i].written = false →
        busRead .w32 (0x0080 + 4 * i.val) s = .next (s.setAcc (Config.unwrittenWord s.resets (0x0080 + 4 * i.val))))
    ∧ (∀ j : Fin 128, s.n[j].written = false →
        busRead .w32 (0x1000 + 4 * j.val) s = .next (s.setAcc (Config.unwrittenWord s.resets (0x1000 + 4 * j.val))))
    ∧ (∀ j : Fin 128, s.e[j].written = false →
        busRead .w32 (0x1200 + 4 * j.val) s = .next (s.setAcc (Config.unwrittenWord s.resets (0x1200 + 4 * j.val))))
    ∧ (∀ j : Fin 128, s.b[j].written = false →
        busRead .w32 (0x1400 + 4 * j.val) s = .next (s.setAcc (Config.unwrittenWord s.resets (0x1400 + 4 * j.val))))
    ∧ ∀ j : Fin 128, s.busy = false → s.r[j].written = false →
        busRead .w32 (0x1600 + 4 * j.val) s = .next (s.setAcc (Config.unwrittenWord s.resets (0x1600 + 4 * j.val)))

/-- R55: a read changes no engine state: only the host's accumulator and the model's draw counter; and a second read of the
same register, with no write or completion between, returns the same value, but for LEN, H and R while BUSY = 1, which are
ANY. -/
def Obligations.ReadsHaveNoSideEffect : Prop :=
  ∀ (w : Width) (off : Nat) (s t : State), busRead w off s = .next t →
    t = { s with host := { s.host with acc := t.host.acc }, draws := t.draws }
    ∧ (s.busy = false ∨ (off ≠ 0x0014 ∧ off ≠ 0x0018 ∧ (∀ i : Fin 8, off ≠ 0x0080 + 4 * i.val)
        ∧ ∀ j : Fin 128, off ≠ 0x1600 + 4 * j.val) →
      busRead w off t = .next t)

/-- R56, R57, R61, R62: what a write to each register does: CTRL and STATUS always (R34, R40); CMD, MSG, N, E and B while idle,
ignored with WERR while busy; a read-only register is never written and sets WERR. -/
def Obligations.RegisterWriteEffects : Prop :=
  ∀ (s : State) (v : Word),
    busWrite .w32 0x0008 v s = .next { s with ie := v.getLsbD 0 }
    ∧ busWrite .w32 0x000C v s = .next { s with
        done := if v.getLsbD 1 then false else s.done, werr := if v.getLsbD 2 then false else s.werr }
    ∧ busWrite .w32 0x0010 v s =
        .next (if s.busy then { s with werr := true } else { s with cur := v, busy := true })
    ∧ (∀ i : Fin 16, busWrite .w32 (0x0040 + 4 * i.val) v s =
        .next (if s.busy then { s with werr := true } else { s with msg := s.msg.set i (.ofWord v) }))
    ∧ (∀ j : Fin 128, busWrite .w32 (0x1000 + 4 * j.val) v s =
        .next (if s.busy then { s with werr := true } else { s with n := s.n.set j (.ofWord v) }))
    ∧ (∀ j : Fin 128, busWrite .w32 (0x1200 + 4 * j.val) v s =
        .next (if s.busy then { s with werr := true } else { s with e := s.e.set j (.ofWord v) }))
    ∧ (∀ j : Fin 128, busWrite .w32 (0x1400 + 4 * j.val) v s =
        .next (if s.busy then { s with werr := true } else { s with b := s.b.set j (.ofWord v) }))
    ∧ ∀ off : Nat, off = 0x0000 ∨ off = 0x0004 ∨ off = 0x0014 ∨ off = 0x0018
          ∨ (∃ i : Fin 8, off = 0x0080 + 4 * i.val) ∨ (∃ j : Fin 128, off = 0x1600 + 4 * j.val) →
        busWrite .w32 off v s = .next { s with werr := true }

/-- R40: STATUS as a number: BUSY in bit 0, DONE 1, WERR 2, SHA_ACTIVE 3, DIGEST_VALID 4, VERIFY_OK 5, ERR in bits 11:8, every
other bit 0. -/
def Obligations.StatusWordLayout : Prop :=
  ∀ s : State, (statusWord s).toNat =
    s.busy.toNat + 2 * s.done.toNat + 4 * s.werr.toNat + 8 * s.shaActive.toNat + 16 * s.digestValid.toNat
      + 32 * s.verifyOk.toNat + 256 * s.err.toNat

/-- R183: IRQ = IE & DONE. With IE = 1 it is asserted by every completion; it is deasserted by writing 1 to STATUS bit 1 and
by clearing IE; setting IE while DONE = 1 asserts it; and no step deasserts it but the host's, a bus write or reset. -/
def Obligations.InterruptOutputIsLevel : Prop :=
  (∀ s : State, irq s = (s.ie && s.done))
  ∧ (∀ (i : Instr) (s t : State), exec i s = .next t → irq t = s.ie)
  ∧ (∀ (s t : State) (v : Word), v.getLsbD 1 = true → busWrite .w32 0x000C v s = .next t → irq t = false)
  ∧ (∀ (s t : State) (v : Word), busWrite .w32 0x0008 v s = .next t → irq t = (v.getLsbD 0 && s.done))
  ∧ ∀ s t : State, step s = .next t → irq s = true → irq t = false →
      nextTurn s = .host ∨ nextTurn s = .reset ∨ ∃ w addr v, nextTurn s = .bus (.write w addr v)

/-- R90: the five statements of the host notation, as the host's move at its next statement; a program with no statement left
does nothing more (log 5). -/
def Obligations.HostStatementMeanings : Prop :=
  ∀ (s : State),
    (∀ off imm, s.host.prog[s.host.pc]? = some (.wr off imm) →
      hostStep s = busWrite .w32 off imm { s with host := { s.host with pc := s.host.pc + 1 } })
    ∧ (∀ off, s.host.prog[s.host.pc]? = some (.rd off) →
      hostStep s = busRead .w32 off { s with host := { s.host with pc := s.host.pc + 1 } })
    ∧ (∀ mask target, s.host.prog[s.host.pc]? = some (.bnz mask target) →
      hostStep s = .next { s with host := { s.host with
        pc := if s.host.acc &&& mask ≠ 0#32 then target else s.host.pc + 1 } })
    ∧ (∀ mask target, s.host.prog[s.host.pc]? = some (.bz mask target) →
      hostStep s = .next { s with host := { s.host with
        pc := if s.host.acc &&& mask = 0#32 then target else s.host.pc + 1 } })
    ∧ (s.host.prog[s.host.pc]? = some .halt → hostStep s = .next s)
    ∧ (s.host.prog[s.host.pc]? = none → hostStep s = .next s)

/-! ### The whole machine -/

/-- R201, R202, R204: the state after reset: control and status 0, ID and CFG their constants, LEN 0, every data word
of MSG, H, N, E, B and R unwritten, IRQ deasserted. -/
def Obligations.ResetStateValues : Prop :=
  State.reset.busy = false ∧ State.reset.done = false ∧ State.reset.werr = false ∧ State.reset.shaActive = false
  ∧ State.reset.digestValid = false ∧ State.reset.verifyOk = false ∧ State.reset.err = 0x0#4
  ∧ Config.idWord = 0x53485253#32 ∧ Config.cfgWord = 0x00010080#32
  ∧ statusWord State.reset = 0x00000000#32 ∧ ctrlWord State.reset = 0x00000000#32 ∧ State.reset.len = 0#64
  ∧ irq State.reset = false
  ∧ allUnwritten State.reset.msg.toList = true ∧ allUnwritten State.reset.h.toList = true
  ∧ allUnwritten State.reset.n.toList = true ∧ allUnwritten State.reset.e.toList = true
  ∧ allUnwritten State.reset.b.toList = true ∧ allUnwritten State.reset.r.toList = true

/-- R200, R203: a platform reset at any time, BUSY or not, leaves the whole engine in the reset state; a command in flight is
abandoned. The host agent, the moves still to come and the draw counter are not the engine's (log 17); the unwritten words
get new unspecified values (log 1). -/
def Obligations.PlatformResetFromAnyState : Prop :=
  ∀ s : State, nextTurn s = .reset →
    step s = .next { State.afterReset (s.resets + 1) with host := s.host, turns := s.turns.tail, draws := s.draws }

/-- The invariant of the engine holds at reset (R25, R38, R116, R171, R201, R202). -/
def Obligations.ResetMeetsEngineInvariant : Prop := EngineInv State.reset

/-- After reset every data word is unwritten and holds its unspecified value (R38, R202; log 1). -/
def Obligations.ResetMeetsUnwrittenInvariant : Prop := UnwrittenInv State.reset

/-- Every step, from every state that meets it, keeps what the data words hold (R38, R55, R202): an unwritten word keeps the
unspecified value of the last reset until it is written. The value's being a function of the resets so far and of the word's
offset is the model's (log 1, DESIGN CHOICE). -/
def Obligations.StepKeepsUnwrittenInvariant : Prop :=
  ∀ s t : State, UnwrittenInv s → step s = .next t → UnwrittenInv t

/-- The invariant of the engine is kept by every step, from every state that meets it: SHA_ACTIVE excludes DIGEST_VALID (R25),
a message in progress or a digest implies H was written (I2), H and R are written whole or not at all (R38), LEN is a
multiple of 512 while a message is in progress (R116) and of 8 always, ERR is a code that is produced (I7), VERIFY_OK implies
R was written (R28). -/
def Obligations.StepKeepsEngineInvariant : Prop :=
  ∀ s t : State, EngineInv s → step s = .next t → EngineInv t

/-- R59: H, LEN, R, VERIFY_OK, SHA_ACTIVE, DIGEST_VALID and ERR change only by the completion of a command in flight and by
reset. -/
def Obligations.OnlyCompletionOrResetChangesResults : Prop :=
  ∀ s t : State, step s = .next t →
    ¬ (t.h = s.h ∧ t.len = s.len ∧ t.r = s.r ∧ t.verifyOk = s.verifyOk ∧ t.shaActive = s.shaActive
        ∧ t.digestValid = s.digestValid ∧ t.err = s.err) →
    (nextTurn s = .engine ∧ s.busy = true) ∨ nextTurn s = .reset

/-- R40, R30 to R32, R24, R25, R28: what sets and what clears each status bit, over one step. BUSY is set by the host's access
and cleared by completion or reset; DONE is set by completion and cleared by the host or reset; WERR is set by the host's
access and cleared by the host or reset; SHA_ACTIVE is set by SHA_INIT and cleared by SHA_FINAL or reset, DIGEST_VALID set by
SHA_FINAL and cleared by SHA_INIT or reset, VERIFY_OK set by RSA_VERIFY and cleared by RSA_VERIFY or reset. -/
def Obligations.StatusBitsChangeOnlyAsListed : Prop :=
  ∀ s t : State, step s = .next t →
    (s.busy = false → t.busy = true → nextTurn s = .host ∨ ∃ w addr v, nextTurn s = .bus (.write w addr v))
    ∧ (s.busy = true → t.busy = false → nextTurn s = .engine ∨ nextTurn s = .reset)
    ∧ (s.done = false → t.done = true → nextTurn s = .engine ∧ s.busy = true)
    ∧ (s.done = true → t.done = false →
        nextTurn s = .host ∨ nextTurn s = .reset ∨ ∃ w addr v, nextTurn s = .bus (.write w addr v))
    ∧ (s.werr = false → t.werr = true → nextTurn s = .host ∨ ∃ w addr v, nextTurn s = .bus (.write w addr v))
    ∧ (s.werr = true → t.werr = false →
        nextTurn s = .host ∨ nextTurn s = .reset ∨ ∃ w addr v, nextTurn s = .bus (.write w addr v))
    ∧ (s.shaActive = false → t.shaActive = true → nextTurn s = .engine ∧ decode s.cur = .ok .shaInit)
    ∧ (s.shaActive = true → t.shaActive = false →
        (nextTurn s = .engine ∧ ∃ r, decode s.cur = .ok (.shaFinal r)) ∨ nextTurn s = .reset)
    ∧ (s.digestValid = false → t.digestValid = true → nextTurn s = .engine ∧ ∃ r, decode s.cur = .ok (.shaFinal r))
    ∧ (s.digestValid = true → t.digestValid = false →
        (nextTurn s = .engine ∧ decode s.cur = .ok .shaInit) ∨ nextTurn s = .reset)
    ∧ (s.verifyOk = false → t.verifyOk = true → nextTurn s = .engine ∧ decode s.cur = .ok .rsaVerify)
    ∧ (s.verifyOk = true → t.verifyOk = false →
        (nextTurn s = .engine ∧ decode s.cur = .ok .rsaVerify) ∨ nextTurn s = .reset)

/-- R20, R61, R72: MSG, N, E, B and CTRL change only by a host access and by reset; and while BUSY = 1 nothing but reset
changes MSG, N, E, B or CUR, so a command sees the operands it was issued with. -/
def Obligations.OperandsAreStable : Prop :=
  ∀ s t : State, step s = .next t →
    (nextTurn s = .engine → t.msg = s.msg ∧ t.n = s.n ∧ t.e = s.e ∧ t.b = s.b ∧ t.ie = s.ie)
    ∧ (s.busy = true → nextTurn s ≠ .reset → t.msg = s.msg ∧ t.n = s.n ∧ t.e = s.e ∧ t.b = s.b ∧ t.cur = s.cur)

/-- R210, R30: a command in flight ends: within one step more than the planned moves the engine has been idle (a completion
or a reset), unless the run stopped on a fault or a refusal. The order of moves is the model's (log 4). -/
def Obligations.BusyEngineBecomesIdle : Prop :=
  ∀ s : State, s.busy = true →
    ∃ k, k ≤ s.turns.length + 1 ∧
      match Sys2Proof.core.run k s with
      | .next t => t.busy = false
      | .fault _ => True
      | .refused _ => True
end

