-- ==== Sys2Proof/Laws/State.lean ====
section
/-! SUPPORT. What each named update of the state does to each field: one lemma per field per update, so that no later proof
unfolds a record update. -/

namespace Sys2Proof.Machine

open Sys2Proof

section setHash

variable (s : State) (h : Vector DataWord 8) (len : BitVec 64)

@[simp] theorem State.setHash_msg : (s.setHash h len).msg = s.msg := rfl
@[simp] theorem State.setHash_h : (s.setHash h len).h = h := rfl
@[simp] theorem State.setHash_len : (s.setHash h len).len = len := rfl
@[simp] theorem State.setHash_shaActive : (s.setHash h len).shaActive = s.shaActive := rfl
@[simp] theorem State.setHash_digestValid : (s.setHash h len).digestValid = s.digestValid := rfl
@[simp] theorem State.setHash_n : (s.setHash h len).n = s.n := rfl
@[simp] theorem State.setHash_e : (s.setHash h len).e = s.e := rfl
@[simp] theorem State.setHash_b : (s.setHash h len).b = s.b := rfl
@[simp] theorem State.setHash_r : (s.setHash h len).r = s.r := rfl
@[simp] theorem State.setHash_verifyOk : (s.setHash h len).verifyOk = s.verifyOk := rfl
@[simp] theorem State.setHash_cur : (s.setHash h len).cur = s.cur := rfl
@[simp] theorem State.setHash_busy : (s.setHash h len).busy = s.busy := rfl
@[simp] theorem State.setHash_done : (s.setHash h len).done = s.done := rfl
@[simp] theorem State.setHash_werr : (s.setHash h len).werr = s.werr := rfl
@[simp] theorem State.setHash_err : (s.setHash h len).err = s.err := rfl
@[simp] theorem State.setHash_ie : (s.setHash h len).ie = s.ie := rfl
@[simp] theorem State.setHash_host : (s.setHash h len).host = s.host := rfl
@[simp] theorem State.setHash_turns : (s.setHash h len).turns = s.turns := rfl
@[simp] theorem State.setHash_draws : (s.setHash h len).draws = s.draws := rfl
@[simp] theorem State.setHash_resets : (s.setHash h len).resets = s.resets := rfl

end setHash

section setShaFlags

variable (s : State) (active valid : Bool)

@[simp] theorem State.setShaFlags_msg : (s.setShaFlags active valid).msg = s.msg := rfl
@[simp] theorem State.setShaFlags_h : (s.setShaFlags active valid).h = s.h := rfl
@[simp] theorem State.setShaFlags_len : (s.setShaFlags active valid).len = s.len := rfl
@[simp] theorem State.setShaFlags_shaActive : (s.setShaFlags active valid).shaActive = active := rfl
@[simp] theorem State.setShaFlags_digestValid : (s.setShaFlags active valid).digestValid = valid := rfl
@[simp] theorem State.setShaFlags_n : (s.setShaFlags active valid).n = s.n := rfl
@[simp] theorem State.setShaFlags_e : (s.setShaFlags active valid).e = s.e := rfl
@[simp] theorem State.setShaFlags_b : (s.setShaFlags active valid).b = s.b := rfl
@[simp] theorem State.setShaFlags_r : (s.setShaFlags active valid).r = s.r := rfl
@[simp] theorem State.setShaFlags_verifyOk : (s.setShaFlags active valid).verifyOk = s.verifyOk := rfl
@[simp] theorem State.setShaFlags_cur : (s.setShaFlags active valid).cur = s.cur := rfl
@[simp] theorem State.setShaFlags_busy : (s.setShaFlags active valid).busy = s.busy := rfl
@[simp] theorem State.setShaFlags_done : (s.setShaFlags active valid).done = s.done := rfl
@[simp] theorem State.setShaFlags_werr : (s.setShaFlags active valid).werr = s.werr := rfl
@[simp] theorem State.setShaFlags_err : (s.setShaFlags active valid).err = s.err := rfl
@[simp] theorem State.setShaFlags_ie : (s.setShaFlags active valid).ie = s.ie := rfl
@[simp] theorem State.setShaFlags_host : (s.setShaFlags active valid).host = s.host := rfl
@[simp] theorem State.setShaFlags_turns : (s.setShaFlags active valid).turns = s.turns := rfl
@[simp] theorem State.setShaFlags_draws : (s.setShaFlags active valid).draws = s.draws := rfl
@[simp] theorem State.setShaFlags_resets : (s.setShaFlags active valid).resets = s.resets := rfl

end setShaFlags

section setR

variable (s : State) (r : Vector DataWord 128)

@[simp] theorem State.setR_msg : (s.setR r).msg = s.msg := rfl
@[simp] theorem State.setR_h : (s.setR r).h = s.h := rfl
@[simp] theorem State.setR_len : (s.setR r).len = s.len := rfl
@[simp] theorem State.setR_shaActive : (s.setR r).shaActive = s.shaActive := rfl
@[simp] theorem State.setR_digestValid : (s.setR r).digestValid = s.digestValid := rfl
@[simp] theorem State.setR_n : (s.setR r).n = s.n := rfl
@[simp] theorem State.setR_e : (s.setR r).e = s.e := rfl
@[simp] theorem State.setR_b : (s.setR r).b = s.b := rfl
@[simp] theorem State.setR_r : (s.setR r).r = r := rfl
@[simp] theorem State.setR_verifyOk : (s.setR r).verifyOk = s.verifyOk := rfl
@[simp] theorem State.setR_cur : (s.setR r).cur = s.cur := rfl
@[simp] theorem State.setR_busy : (s.setR r).busy = s.busy := rfl
@[simp] theorem State.setR_done : (s.setR r).done = s.done := rfl
@[simp] theorem State.setR_werr : (s.setR r).werr = s.werr := rfl
@[simp] theorem State.setR_err : (s.setR r).err = s.err := rfl
@[simp] theorem State.setR_ie : (s.setR r).ie = s.ie := rfl
@[simp] theorem State.setR_host : (s.setR r).host = s.host := rfl
@[simp] theorem State.setR_turns : (s.setR r).turns = s.turns := rfl
@[simp] theorem State.setR_draws : (s.setR r).draws = s.draws := rfl
@[simp] theorem State.setR_resets : (s.setR r).resets = s.resets := rfl

end setR

section setVerifyOk

variable (s : State) (v : Bool)

@[simp] theorem State.setVerifyOk_msg : (s.setVerifyOk v).msg = s.msg := rfl
@[simp] theorem State.setVerifyOk_h : (s.setVerifyOk v).h = s.h := rfl
@[simp] theorem State.setVerifyOk_len : (s.setVerifyOk v).len = s.len := rfl
@[simp] theorem State.setVerifyOk_shaActive : (s.setVerifyOk v).shaActive = s.shaActive := rfl
@[simp] theorem State.setVerifyOk_digestValid : (s.setVerifyOk v).digestValid = s.digestValid := rfl
@[simp] theorem State.setVerifyOk_n : (s.setVerifyOk v).n = s.n := rfl
@[simp] theorem State.setVerifyOk_e : (s.setVerifyOk v).e = s.e := rfl
@[simp] theorem State.setVerifyOk_b : (s.setVerifyOk v).b = s.b := rfl
@[simp] theorem State.setVerifyOk_r : (s.setVerifyOk v).r = s.r := rfl
@[simp] theorem State.setVerifyOk_verifyOk : (s.setVerifyOk v).verifyOk = v := rfl
@[simp] theorem State.setVerifyOk_cur : (s.setVerifyOk v).cur = s.cur := rfl
@[simp] theorem State.setVerifyOk_busy : (s.setVerifyOk v).busy = s.busy := rfl
@[simp] theorem State.setVerifyOk_done : (s.setVerifyOk v).done = s.done := rfl
@[simp] theorem State.setVerifyOk_werr : (s.setVerifyOk v).werr = s.werr := rfl
@[simp] theorem State.setVerifyOk_err : (s.setVerifyOk v).err = s.err := rfl
@[simp] theorem State.setVerifyOk_ie : (s.setVerifyOk v).ie = s.ie := rfl
@[simp] theorem State.setVerifyOk_host : (s.setVerifyOk v).host = s.host := rfl
@[simp] theorem State.setVerifyOk_turns : (s.setVerifyOk v).turns = s.turns := rfl
@[simp] theorem State.setVerifyOk_draws : (s.setVerifyOk v).draws = s.draws := rfl
@[simp] theorem State.setVerifyOk_resets : (s.setVerifyOk v).resets = s.resets := rfl

end setVerifyOk

section setMsgWord

variable (s : State) (i : Fin 16) (v : Word)

@[simp] theorem State.setMsgWord_msg : (s.setMsgWord i v).msg = s.msg.set i (.ofWord v) := rfl
@[simp] theorem State.setMsgWord_h : (s.setMsgWord i v).h = s.h := rfl
@[simp] theorem State.setMsgWord_len : (s.setMsgWord i v).len = s.len := rfl
@[simp] theorem State.setMsgWord_shaActive : (s.setMsgWord i v).shaActive = s.shaActive := rfl
@[simp] theorem State.setMsgWord_digestValid : (s.setMsgWord i v).digestValid = s.digestValid := rfl
@[simp] theorem State.setMsgWord_n : (s.setMsgWord i v).n = s.n := rfl
@[simp] theorem State.setMsgWord_e : (s.setMsgWord i v).e = s.e := rfl
@[simp] theorem State.setMsgWord_b : (s.setMsgWord i v).b = s.b := rfl
@[simp] theorem State.setMsgWord_r : (s.setMsgWord i v).r = s.r := rfl
@[simp] theorem State.setMsgWord_verifyOk : (s.setMsgWord i v).verifyOk = s.verifyOk := rfl
@[simp] theorem State.setMsgWord_cur : (s.setMsgWord i v).cur = s.cur := rfl
@[simp] theorem State.setMsgWord_busy : (s.setMsgWord i v).busy = s.busy := rfl
@[simp] theorem State.setMsgWord_done : (s.setMsgWord i v).done = s.done := rfl
@[simp] theorem State.setMsgWord_werr : (s.setMsgWord i v).werr = s.werr := rfl
@[simp] theorem State.setMsgWord_err : (s.setMsgWord i v).err = s.err := rfl
@[simp] theorem State.setMsgWord_ie : (s.setMsgWord i v).ie = s.ie := rfl
@[simp] theorem State.setMsgWord_host : (s.setMsgWord i v).host = s.host := rfl
@[simp] theorem State.setMsgWord_turns : (s.setMsgWord i v).turns = s.turns := rfl
@[simp] theorem State.setMsgWord_draws : (s.setMsgWord i v).draws = s.draws := rfl
@[simp] theorem State.setMsgWord_resets : (s.setMsgWord i v).resets = s.resets := rfl

end setMsgWord

section setNWord

variable (s : State) (j : Fin 128) (v : Word)

@[simp] theorem State.setNWord_msg : (s.setNWord j v).msg = s.msg := rfl
@[simp] theorem State.setNWord_h : (s.setNWord j v).h = s.h := rfl
@[simp] theorem State.setNWord_len : (s.setNWord j v).len = s.len := rfl
@[simp] theorem State.setNWord_shaActive : (s.setNWord j v).shaActive = s.shaActive := rfl
@[simp] theorem State.setNWord_digestValid : (s.setNWord j v).digestValid = s.digestValid := rfl
@[simp] theorem State.setNWord_n : (s.setNWord j v).n = s.n.set j (.ofWord v) := rfl
@[simp] theorem State.setNWord_e : (s.setNWord j v).e = s.e := rfl
@[simp] theorem State.setNWord_b : (s.setNWord j v).b = s.b := rfl
@[simp] theorem State.setNWord_r : (s.setNWord j v).r = s.r := rfl
@[simp] theorem State.setNWord_verifyOk : (s.setNWord j v).verifyOk = s.verifyOk := rfl
@[simp] theorem State.setNWord_cur : (s.setNWord j v).cur = s.cur := rfl
@[simp] theorem State.setNWord_busy : (s.setNWord j v).busy = s.busy := rfl
@[simp] theorem State.setNWord_done : (s.setNWord j v).done = s.done := rfl
@[simp] theorem State.setNWord_werr : (s.setNWord j v).werr = s.werr := rfl
@[simp] theorem State.setNWord_err : (s.setNWord j v).err = s.err := rfl
@[simp] theorem State.setNWord_ie : (s.setNWord j v).ie = s.ie := rfl
@[simp] theorem State.setNWord_host : (s.setNWord j v).host = s.host := rfl
@[simp] theorem State.setNWord_turns : (s.setNWord j v).turns = s.turns := rfl
@[simp] theorem State.setNWord_draws : (s.setNWord j v).draws = s.draws := rfl
@[simp] theorem State.setNWord_resets : (s.setNWord j v).resets = s.resets := rfl

end setNWord

section setEWord

variable (s : State) (j : Fin 128) (v : Word)

@[simp] theorem State.setEWord_msg : (s.setEWord j v).msg = s.msg := rfl
@[simp] theorem State.setEWord_h : (s.setEWord j v).h = s.h := rfl
@[simp] theorem State.setEWord_len : (s.setEWord j v).len = s.len := rfl
@[simp] theorem State.setEWord_shaActive : (s.setEWord j v).shaActive = s.shaActive := rfl
@[simp] theorem State.setEWord_digestValid : (s.setEWord j v).digestValid = s.digestValid := rfl
@[simp] theorem State.setEWord_n : (s.setEWord j v).n = s.n := rfl
@[simp] theorem State.setEWord_e : (s.setEWord j v).e = s.e.set j (.ofWord v) := rfl
@[simp] theorem State.setEWord_b : (s.setEWord j v).b = s.b := rfl
@[simp] theorem State.setEWord_r : (s.setEWord j v).r = s.r := rfl
@[simp] theorem State.setEWord_verifyOk : (s.setEWord j v).verifyOk = s.verifyOk := rfl
@[simp] theorem State.setEWord_cur : (s.setEWord j v).cur = s.cur := rfl
@[simp] theorem State.setEWord_busy : (s.setEWord j v).busy = s.busy := rfl
@[simp] theorem State.setEWord_done : (s.setEWord j v).done = s.done := rfl
@[simp] theorem State.setEWord_werr : (s.setEWord j v).werr = s.werr := rfl
@[simp] theorem State.setEWord_err : (s.setEWord j v).err = s.err := rfl
@[simp] theorem State.setEWord_ie : (s.setEWord j v).ie = s.ie := rfl
@[simp] theorem State.setEWord_host : (s.setEWord j v).host = s.host := rfl
@[simp] theorem State.setEWord_turns : (s.setEWord j v).turns = s.turns := rfl
@[simp] theorem State.setEWord_draws : (s.setEWord j v).draws = s.draws := rfl
@[simp] theorem State.setEWord_resets : (s.setEWord j v).resets = s.resets := rfl

end setEWord

section setBWord

variable (s : State) (j : Fin 128) (v : Word)

@[simp] theorem State.setBWord_msg : (s.setBWord j v).msg = s.msg := rfl
@[simp] theorem State.setBWord_h : (s.setBWord j v).h = s.h := rfl
@[simp] theorem State.setBWord_len : (s.setBWord j v).len = s.len := rfl
@[simp] theorem State.setBWord_shaActive : (s.setBWord j v).shaActive = s.shaActive := rfl
@[simp] theorem State.setBWord_digestValid : (s.setBWord j v).digestValid = s.digestValid := rfl
@[simp] theorem State.setBWord_n : (s.setBWord j v).n = s.n := rfl
@[simp] theorem State.setBWord_e : (s.setBWord j v).e = s.e := rfl
@[simp] theorem State.setBWord_b : (s.setBWord j v).b = s.b.set j (.ofWord v) := rfl
@[simp] theorem State.setBWord_r : (s.setBWord j v).r = s.r := rfl
@[simp] theorem State.setBWord_verifyOk : (s.setBWord j v).verifyOk = s.verifyOk := rfl
@[simp] theorem State.setBWord_cur : (s.setBWord j v).cur = s.cur := rfl
@[simp] theorem State.setBWord_busy : (s.setBWord j v).busy = s.busy := rfl
@[simp] theorem State.setBWord_done : (s.setBWord j v).done = s.done := rfl
@[simp] theorem State.setBWord_werr : (s.setBWord j v).werr = s.werr := rfl
@[simp] theorem State.setBWord_err : (s.setBWord j v).err = s.err := rfl
@[simp] theorem State.setBWord_ie : (s.setBWord j v).ie = s.ie := rfl
@[simp] theorem State.setBWord_host : (s.setBWord j v).host = s.host := rfl
@[simp] theorem State.setBWord_turns : (s.setBWord j v).turns = s.turns := rfl
@[simp] theorem State.setBWord_draws : (s.setBWord j v).draws = s.draws := rfl
@[simp] theorem State.setBWord_resets : (s.setBWord j v).resets = s.resets := rfl

end setBWord

section setWerr

variable (s : State)

@[simp] theorem State.setWerr_msg : (s.setWerr).msg = s.msg := rfl
@[simp] theorem State.setWerr_h : (s.setWerr).h = s.h := rfl
@[simp] theorem State.setWerr_len : (s.setWerr).len = s.len := rfl
@[simp] theorem State.setWerr_shaActive : (s.setWerr).shaActive = s.shaActive := rfl
@[simp] theorem State.setWerr_digestValid : (s.setWerr).digestValid = s.digestValid := rfl
@[simp] theorem State.setWerr_n : (s.setWerr).n = s.n := rfl
@[simp] theorem State.setWerr_e : (s.setWerr).e = s.e := rfl
@[simp] theorem State.setWerr_b : (s.setWerr).b = s.b := rfl
@[simp] theorem State.setWerr_r : (s.setWerr).r = s.r := rfl
@[simp] theorem State.setWerr_verifyOk : (s.setWerr).verifyOk = s.verifyOk := rfl
@[simp] theorem State.setWerr_cur : (s.setWerr).cur = s.cur := rfl
@[simp] theorem State.setWerr_busy : (s.setWerr).busy = s.busy := rfl
@[simp] theorem State.setWerr_done : (s.setWerr).done = s.done := rfl
@[simp] theorem State.setWerr_werr : (s.setWerr).werr = true := rfl
@[simp] theorem State.setWerr_err : (s.setWerr).err = s.err := rfl
@[simp] theorem State.setWerr_ie : (s.setWerr).ie = s.ie := rfl
@[simp] theorem State.setWerr_host : (s.setWerr).host = s.host := rfl
@[simp] theorem State.setWerr_turns : (s.setWerr).turns = s.turns := rfl
@[simp] theorem State.setWerr_draws : (s.setWerr).draws = s.draws := rfl
@[simp] theorem State.setWerr_resets : (s.setWerr).resets = s.resets := rfl

end setWerr

section writeCtrl

variable (s : State) (v : Word)

@[simp] theorem State.writeCtrl_msg : (s.writeCtrl v).msg = s.msg := rfl
@[simp] theorem State.writeCtrl_h : (s.writeCtrl v).h = s.h := rfl
@[simp] theorem State.writeCtrl_len : (s.writeCtrl v).len = s.len := rfl
@[simp] theorem State.writeCtrl_shaActive : (s.writeCtrl v).shaActive = s.shaActive := rfl
@[simp] theorem State.writeCtrl_digestValid : (s.writeCtrl v).digestValid = s.digestValid := rfl
@[simp] theorem State.writeCtrl_n : (s.writeCtrl v).n = s.n := rfl
@[simp] theorem State.writeCtrl_e : (s.writeCtrl v).e = s.e := rfl
@[simp] theorem State.writeCtrl_b : (s.writeCtrl v).b = s.b := rfl
@[simp] theorem State.writeCtrl_r : (s.writeCtrl v).r = s.r := rfl
@[simp] theorem State.writeCtrl_verifyOk : (s.writeCtrl v).verifyOk = s.verifyOk := rfl
@[simp] theorem State.writeCtrl_cur : (s.writeCtrl v).cur = s.cur := rfl
@[simp] theorem State.writeCtrl_busy : (s.writeCtrl v).busy = s.busy := rfl
@[simp] theorem State.writeCtrl_done : (s.writeCtrl v).done = s.done := rfl
@[simp] theorem State.writeCtrl_werr : (s.writeCtrl v).werr = s.werr := rfl
@[simp] theorem State.writeCtrl_err : (s.writeCtrl v).err = s.err := rfl
@[simp] theorem State.writeCtrl_ie : (s.writeCtrl v).ie = v.getLsbD 0 := rfl
@[simp] theorem State.writeCtrl_host : (s.writeCtrl v).host = s.host := rfl
@[simp] theorem State.writeCtrl_turns : (s.writeCtrl v).turns = s.turns := rfl
@[simp] theorem State.writeCtrl_draws : (s.writeCtrl v).draws = s.draws := rfl
@[simp] theorem State.writeCtrl_resets : (s.writeCtrl v).resets = s.resets := rfl

end writeCtrl

section writeStatus

variable (s : State) (v : Word)

@[simp] theorem State.writeStatus_msg : (s.writeStatus v).msg = s.msg := rfl
@[simp] theorem State.writeStatus_h : (s.writeStatus v).h = s.h := rfl
@[simp] theorem State.writeStatus_len : (s.writeStatus v).len = s.len := rfl
@[simp] theorem State.writeStatus_shaActive : (s.writeStatus v).shaActive = s.shaActive := rfl
@[simp] theorem State.writeStatus_digestValid : (s.writeStatus v).digestValid = s.digestValid := rfl
@[simp] theorem State.writeStatus_n : (s.writeStatus v).n = s.n := rfl
@[simp] theorem State.writeStatus_e : (s.writeStatus v).e = s.e := rfl
@[simp] theorem State.writeStatus_b : (s.writeStatus v).b = s.b := rfl
@[simp] theorem State.writeStatus_r : (s.writeStatus v).r = s.r := rfl
@[simp] theorem State.writeStatus_verifyOk : (s.writeStatus v).verifyOk = s.verifyOk := rfl
@[simp] theorem State.writeStatus_cur : (s.writeStatus v).cur = s.cur := rfl
@[simp] theorem State.writeStatus_busy : (s.writeStatus v).busy = s.busy := rfl
@[simp] theorem State.writeStatus_done : (s.writeStatus v).done = (s.done && !v.getLsbD 1) := rfl
@[simp] theorem State.writeStatus_werr : (s.writeStatus v).werr = (s.werr && !v.getLsbD 2) := rfl
@[simp] theorem State.writeStatus_err : (s.writeStatus v).err = s.err := rfl
@[simp] theorem State.writeStatus_ie : (s.writeStatus v).ie = s.ie := rfl
@[simp] theorem State.writeStatus_host : (s.writeStatus v).host = s.host := rfl
@[simp] theorem State.writeStatus_turns : (s.writeStatus v).turns = s.turns := rfl
@[simp] theorem State.writeStatus_draws : (s.writeStatus v).draws = s.draws := rfl
@[simp] theorem State.writeStatus_resets : (s.writeStatus v).resets = s.resets := rfl

end writeStatus

section setAcc

variable (s : State) (v : Word)

@[simp] theorem State.setAcc_msg : (s.setAcc v).msg = s.msg := rfl
@[simp] theorem State.setAcc_h : (s.setAcc v).h = s.h := rfl
@[simp] theorem State.setAcc_len : (s.setAcc v).len = s.len := rfl
@[simp] theorem State.setAcc_shaActive : (s.setAcc v).shaActive = s.shaActive := rfl
@[simp] theorem State.setAcc_digestValid : (s.setAcc v).digestValid = s.digestValid := rfl
@[simp] theorem State.setAcc_n : (s.setAcc v).n = s.n := rfl
@[simp] theorem State.setAcc_e : (s.setAcc v).e = s.e := rfl
@[simp] theorem State.setAcc_b : (s.setAcc v).b = s.b := rfl
@[simp] theorem State.setAcc_r : (s.setAcc v).r = s.r := rfl
@[simp] theorem State.setAcc_verifyOk : (s.setAcc v).verifyOk = s.verifyOk := rfl
@[simp] theorem State.setAcc_cur : (s.setAcc v).cur = s.cur := rfl
@[simp] theorem State.setAcc_busy : (s.setAcc v).busy = s.busy := rfl
@[simp] theorem State.setAcc_done : (s.setAcc v).done = s.done := rfl
@[simp] theorem State.setAcc_werr : (s.setAcc v).werr = s.werr := rfl
@[simp] theorem State.setAcc_err : (s.setAcc v).err = s.err := rfl
@[simp] theorem State.setAcc_ie : (s.setAcc v).ie = s.ie := rfl
@[simp] theorem State.setAcc_host : (s.setAcc v).host = { s.host with acc := v } := rfl
@[simp] theorem State.setAcc_turns : (s.setAcc v).turns = s.turns := rfl
@[simp] theorem State.setAcc_draws : (s.setAcc v).draws = s.draws := rfl
@[simp] theorem State.setAcc_resets : (s.setAcc v).resets = s.resets := rfl

end setAcc

section setPc

variable (s : State) (pc : Nat)

@[simp] theorem State.setPc_msg : (s.setPc pc).msg = s.msg := rfl
@[simp] theorem State.setPc_h : (s.setPc pc).h = s.h := rfl
@[simp] theorem State.setPc_len : (s.setPc pc).len = s.len := rfl
@[simp] theorem State.setPc_shaActive : (s.setPc pc).shaActive = s.shaActive := rfl
@[simp] theorem State.setPc_digestValid : (s.setPc pc).digestValid = s.digestValid := rfl
@[simp] theorem State.setPc_n : (s.setPc pc).n = s.n := rfl
@[simp] theorem State.setPc_e : (s.setPc pc).e = s.e := rfl
@[simp] theorem State.setPc_b : (s.setPc pc).b = s.b := rfl
@[simp] theorem State.setPc_r : (s.setPc pc).r = s.r := rfl
@[simp] theorem State.setPc_verifyOk : (s.setPc pc).verifyOk = s.verifyOk := rfl
@[simp] theorem State.setPc_cur : (s.setPc pc).cur = s.cur := rfl
@[simp] theorem State.setPc_busy : (s.setPc pc).busy = s.busy := rfl
@[simp] theorem State.setPc_done : (s.setPc pc).done = s.done := rfl
@[simp] theorem State.setPc_werr : (s.setPc pc).werr = s.werr := rfl
@[simp] theorem State.setPc_err : (s.setPc pc).err = s.err := rfl
@[simp] theorem State.setPc_ie : (s.setPc pc).ie = s.ie := rfl
@[simp] theorem State.setPc_host : (s.setPc pc).host = { s.host with pc := pc } := rfl
@[simp] theorem State.setPc_turns : (s.setPc pc).turns = s.turns := rfl
@[simp] theorem State.setPc_draws : (s.setPc pc).draws = s.draws := rfl
@[simp] theorem State.setPc_resets : (s.setPc pc).resets = s.resets := rfl

end setPc

section setTurns

variable (s : State) (ts : List Turn)

@[simp] theorem State.setTurns_msg : (s.setTurns ts).msg = s.msg := rfl
@[simp] theorem State.setTurns_h : (s.setTurns ts).h = s.h := rfl
@[simp] theorem State.setTurns_len : (s.setTurns ts).len = s.len := rfl
@[simp] theorem State.setTurns_shaActive : (s.setTurns ts).shaActive = s.shaActive := rfl
@[simp] theorem State.setTurns_digestValid : (s.setTurns ts).digestValid = s.digestValid := rfl
@[simp] theorem State.setTurns_n : (s.setTurns ts).n = s.n := rfl
@[simp] theorem State.setTurns_e : (s.setTurns ts).e = s.e := rfl
@[simp] theorem State.setTurns_b : (s.setTurns ts).b = s.b := rfl
@[simp] theorem State.setTurns_r : (s.setTurns ts).r = s.r := rfl
@[simp] theorem State.setTurns_verifyOk : (s.setTurns ts).verifyOk = s.verifyOk := rfl
@[simp] theorem State.setTurns_cur : (s.setTurns ts).cur = s.cur := rfl
@[simp] theorem State.setTurns_busy : (s.setTurns ts).busy = s.busy := rfl
@[simp] theorem State.setTurns_done : (s.setTurns ts).done = s.done := rfl
@[simp] theorem State.setTurns_werr : (s.setTurns ts).werr = s.werr := rfl
@[simp] theorem State.setTurns_err : (s.setTurns ts).err = s.err := rfl
@[simp] theorem State.setTurns_ie : (s.setTurns ts).ie = s.ie := rfl
@[simp] theorem State.setTurns_host : (s.setTurns ts).host = s.host := rfl
@[simp] theorem State.setTurns_turns : (s.setTurns ts).turns = ts := rfl
@[simp] theorem State.setTurns_draws : (s.setTurns ts).draws = s.draws := rfl
@[simp] theorem State.setTurns_resets : (s.setTurns ts).resets = s.resets := rfl

end setTurns

section countDraw

variable (s : State)

@[simp] theorem State.countDraw_msg : (s.countDraw).msg = s.msg := rfl
@[simp] theorem State.countDraw_h : (s.countDraw).h = s.h := rfl
@[simp] theorem State.countDraw_len : (s.countDraw).len = s.len := rfl
@[simp] theorem State.countDraw_shaActive : (s.countDraw).shaActive = s.shaActive := rfl
@[simp] theorem State.countDraw_digestValid : (s.countDraw).digestValid = s.digestValid := rfl
@[simp] theorem State.countDraw_n : (s.countDraw).n = s.n := rfl
@[simp] theorem State.countDraw_e : (s.countDraw).e = s.e := rfl
@[simp] theorem State.countDraw_b : (s.countDraw).b = s.b := rfl
@[simp] theorem State.countDraw_r : (s.countDraw).r = s.r := rfl
@[simp] theorem State.countDraw_verifyOk : (s.countDraw).verifyOk = s.verifyOk := rfl
@[simp] theorem State.countDraw_cur : (s.countDraw).cur = s.cur := rfl
@[simp] theorem State.countDraw_busy : (s.countDraw).busy = s.busy := rfl
@[simp] theorem State.countDraw_done : (s.countDraw).done = s.done := rfl
@[simp] theorem State.countDraw_werr : (s.countDraw).werr = s.werr := rfl
@[simp] theorem State.countDraw_err : (s.countDraw).err = s.err := rfl
@[simp] theorem State.countDraw_ie : (s.countDraw).ie = s.ie := rfl
@[simp] theorem State.countDraw_host : (s.countDraw).host = s.host := rfl
@[simp] theorem State.countDraw_turns : (s.countDraw).turns = s.turns := rfl
@[simp] theorem State.countDraw_draws : (s.countDraw).draws = s.draws + 1 := rfl
@[simp] theorem State.countDraw_resets : (s.countDraw).resets = s.resets := rfl

end countDraw

section issue

variable (s : State) (v : Word)

@[simp] theorem State.issue_msg : (s.issue v).msg = s.msg := rfl
@[simp] theorem State.issue_h : (s.issue v).h = s.h := rfl
@[simp] theorem State.issue_len : (s.issue v).len = s.len := rfl
@[simp] theorem State.issue_shaActive : (s.issue v).shaActive = s.shaActive := rfl
@[simp] theorem State.issue_digestValid : (s.issue v).digestValid = s.digestValid := rfl
@[simp] theorem State.issue_n : (s.issue v).n = s.n := rfl
@[simp] theorem State.issue_e : (s.issue v).e = s.e := rfl
@[simp] theorem State.issue_b : (s.issue v).b = s.b := rfl
@[simp] theorem State.issue_r : (s.issue v).r = s.r := rfl
@[simp] theorem State.issue_verifyOk : (s.issue v).verifyOk = s.verifyOk := rfl
@[simp] theorem State.issue_cur : (s.issue v).cur = v := rfl
@[simp] theorem State.issue_busy : (s.issue v).busy = true := rfl
@[simp] theorem State.issue_done : (s.issue v).done = s.done := rfl
@[simp] theorem State.issue_werr : (s.issue v).werr = s.werr := rfl
@[simp] theorem State.issue_err : (s.issue v).err = s.err := rfl
@[simp] theorem State.issue_ie : (s.issue v).ie = s.ie := rfl
@[simp] theorem State.issue_host : (s.issue v).host = s.host := rfl
@[simp] theorem State.issue_turns : (s.issue v).turns = s.turns := rfl
@[simp] theorem State.issue_draws : (s.issue v).draws = s.draws := rfl
@[simp] theorem State.issue_resets : (s.issue v).resets = s.resets := rfl

end issue

section finish

variable (s : State) (code : ErrCode)

@[simp] theorem State.finish_msg : (s.finish code).msg = s.msg := rfl
@[simp] theorem State.finish_h : (s.finish code).h = s.h := rfl
@[simp] theorem State.finish_len : (s.finish code).len = s.len := rfl
@[simp] theorem State.finish_shaActive : (s.finish code).shaActive = s.shaActive := rfl
@[simp] theorem State.finish_digestValid : (s.finish code).digestValid = s.digestValid := rfl
@[simp] theorem State.finish_n : (s.finish code).n = s.n := rfl
@[simp] theorem State.finish_e : (s.finish code).e = s.e := rfl
@[simp] theorem State.finish_b : (s.finish code).b = s.b := rfl
@[simp] theorem State.finish_r : (s.finish code).r = s.r := rfl
@[simp] theorem State.finish_verifyOk : (s.finish code).verifyOk = s.verifyOk := rfl
@[simp] theorem State.finish_cur : (s.finish code).cur = s.cur := rfl
@[simp] theorem State.finish_busy : (s.finish code).busy = false := rfl
@[simp] theorem State.finish_done : (s.finish code).done = true := rfl
@[simp] theorem State.finish_werr : (s.finish code).werr = s.werr := rfl
@[simp] theorem State.finish_err : (s.finish code).err = code.code := rfl
@[simp] theorem State.finish_ie : (s.finish code).ie = s.ie := rfl
@[simp] theorem State.finish_host : (s.finish code).host = s.host := rfl
@[simp] theorem State.finish_turns : (s.finish code).turns = s.turns := rfl
@[simp] theorem State.finish_draws : (s.finish code).draws = s.draws := rfl
@[simp] theorem State.finish_resets : (s.finish code).resets = s.resets := rfl

end finish

section resetEngine

variable (s : State)

@[simp] theorem State.resetEngine_msg : s.resetEngine.msg = (State.afterReset (s.resets + 1)).msg := rfl
@[simp] theorem State.resetEngine_h : s.resetEngine.h = (State.afterReset (s.resets + 1)).h := rfl
@[simp] theorem State.resetEngine_len : s.resetEngine.len = (State.afterReset (s.resets + 1)).len := rfl
@[simp] theorem State.resetEngine_shaActive : s.resetEngine.shaActive = (State.afterReset (s.resets + 1)).shaActive := rfl
@[simp] theorem State.resetEngine_digestValid : s.resetEngine.digestValid = (State.afterReset (s.resets + 1)).digestValid := rfl
@[simp] theorem State.resetEngine_n : s.resetEngine.n = (State.afterReset (s.resets + 1)).n := rfl
@[simp] theorem State.resetEngine_e : s.resetEngine.e = (State.afterReset (s.resets + 1)).e := rfl
@[simp] theorem State.resetEngine_b : s.resetEngine.b = (State.afterReset (s.resets + 1)).b := rfl
@[simp] theorem State.resetEngine_r : s.resetEngine.r = (State.afterReset (s.resets + 1)).r := rfl
@[simp] theorem State.resetEngine_verifyOk : s.resetEngine.verifyOk = (State.afterReset (s.resets + 1)).verifyOk := rfl
@[simp] theorem State.resetEngine_cur : s.resetEngine.cur = (State.afterReset (s.resets + 1)).cur := rfl
@[simp] theorem State.resetEngine_busy : s.resetEngine.busy = (State.afterReset (s.resets + 1)).busy := rfl
@[simp] theorem State.resetEngine_done : s.resetEngine.done = (State.afterReset (s.resets + 1)).done := rfl
@[simp] theorem State.resetEngine_werr : s.resetEngine.werr = (State.afterReset (s.resets + 1)).werr := rfl
@[simp] theorem State.resetEngine_err : s.resetEngine.err = (State.afterReset (s.resets + 1)).err := rfl
@[simp] theorem State.resetEngine_ie : s.resetEngine.ie = (State.afterReset (s.resets + 1)).ie := rfl
@[simp] theorem State.resetEngine_host : s.resetEngine.host = s.host := rfl
@[simp] theorem State.resetEngine_turns : s.resetEngine.turns = s.turns := rfl
@[simp] theorem State.resetEngine_draws : s.resetEngine.draws = s.draws := rfl
@[simp] theorem State.resetEngine_resets : s.resetEngine.resets = s.resets + 1 := rfl

end resetEngine

end Sys2Proof.Machine
end

