-- ==== Sys2Proof/Laws/Ops.lean ====
section
/-! SUPPORT. What the shared operations can do: one lemma each, cited instead of unfolding them. -/

namespace Sys2Proof.Machine

open Sys2Proof

/-! ### Completion -/

@[simp] theorem complete_eq (s : State) : complete s = s.finish .ok := rfl

@[simp] theorem raiseError_eq (code : ErrCode) (s : State) : raiseError code s = s.finish code := rfl

@[simp] theorem raiseVerifyError_eq (code : ErrCode) (s : State) :
    raiseVerifyError code s = (s.setVerifyOk false).finish code := rfl

theorem errCode_le_seven (c : ErrCode) : c.code.toNat ≤ 7 := by cases c <;> decide

theorem errCode_code_injective {c d : ErrCode} (h : c.code = d.code) : c = d := by
  revert h
  cases c <;> cases d <;> decide

/-! ### Data words -/

@[simp] theorem DataWord.ofWord_value (v : Word) : (DataWord.ofWord v).value = v := rfl

@[simp] theorem DataWord.ofWord_written (v : Word) : (DataWord.ofWord v).written = true := rfl

@[simp] theorem DataWord.unwritten_value (v : Word) : (DataWord.unwritten v).value = v := rfl

@[simp] theorem DataWord.unwritten_written (v : Word) : (DataWord.unwritten v).written = false := rfl

@[simp] theorem valuesOf_nil : valuesOf [] = [] := rfl

@[simp] theorem valuesOf_cons (d : DataWord) (ws : List DataWord) : valuesOf (d :: ws) = d.value :: valuesOf ws := rfl

@[simp] theorem valuesOf_length (ws : List DataWord) : (valuesOf ws).length = ws.length := by simp [valuesOf]

@[simp] theorem valuesOf_getElem? (ws : List DataWord) (k : Nat) : (valuesOf ws)[k]? = ws[k]?.map (·.value) := by
  simp [valuesOf]

@[simp] theorem heldWords_getElem? (resets base : Nat) (ws : List DataWord) (k : Nat) :
    (heldWords resets base ws)[k]?
      = ws[k]?.map fun d => if d.written then d.value else Config.unwrittenWord resets (base + 4 * k) := by
  simp [heldWords]

/-- The words of a register hold what they should exactly when each unwritten one holds its unspecified value. -/
theorem valuesOf_eq_heldWords_iff {resets base : Nat} {ws : List DataWord} :
    valuesOf ws = heldWords resets base ws
      ↔ ∀ (k : Nat) (d : DataWord), ws[k]? = some d → d.written = false →
          d.value = Config.unwrittenWord resets (base + 4 * k) := by
  constructor
  · rintro h k d hk hd
    have := congrArg (fun l : List Word => l[k]?) h
    simpa [hk, hd] using this
  · rintro h
    apply List.ext_getElem?
    intro k
    rw [valuesOf_getElem?, heldWords_getElem?]
    cases hk : ws[k]? with
    | none => rfl
    | some d =>
      cases hd : d.written with
      | true => simp [hd]
      | false => simp [hd, h k d hk hd]

/-- Written words hold their values, whatever was reset. -/
theorem heldWords_of_written {resets base : Nat} {ws : List DataWord} (h : allWritten ws = true) :
    valuesOf ws = heldWords resets base ws := by
  rw [valuesOf_eq_heldWords_iff]
  intro k d hk hd
  have := List.all_eq_true.1 h d (List.mem_of_getElem? hk)
  rw [hd] at this
  cases this

/-- Words agree with themselves. -/
theorem agreeWhereWritten_self (ws : List DataWord) : agreeWhereWritten ws ws = true := by
  simp only [agreeWhereWritten, beq_self_eq_true, Bool.true_and]
  induction ws with
  | nil => rfl
  | cons d ws ih => simp [ih]

/-- Written words that agree hold the same values. -/
theorem valuesOf_eq_of_agree {ws vs : List DataWord} (h : agreeWhereWritten ws vs = true) (hw : allWritten ws = true) :
    valuesOf vs = valuesOf ws := by
  induction ws generalizing vs with
  | nil => cases vs <;> simp_all [agreeWhereWritten]
  | cons d ws ih =>
    cases vs with
    | nil => simp [agreeWhereWritten] at h
    | cons e vs =>
      simp only [agreeWhereWritten, List.map_cons, List.zip_cons_cons, List.all_cons, allWritten, Bool.and_eq_true,
        beq_iff_eq, List.cons.injEq] at h hw
      rw [hw.1] at h
      rw [valuesOf_cons, valuesOf_cons, ih (by rw [agreeWhereWritten, h.1.2, h.2.2, beq_self_eq_true]; rfl) hw.2]
      rw [show d.value = e.value by simpa using h.2.1]

theorem unwrittenRegister_toList (resets base n : Nat) :
    (unwrittenRegister resets base n).toList
      = (List.range n).map fun k => DataWord.unwritten (Config.unwrittenWord resets (base + 4 * k)) := by
  simp [unwrittenRegister]

theorem unwrittenRegister_allUnwritten (resets base n : Nat) :
    allUnwritten (unwrittenRegister resets base n).toList = true := by
  simp [allUnwritten, unwrittenRegister_toList]

theorem unwrittenRegister_valuesOf (resets base n : Nat) :
    valuesOf (unwrittenRegister resets base n).toList
      = heldWords resets base (unwrittenRegister resets base n).toList := by
  rw [valuesOf_eq_heldWords_iff, unwrittenRegister_toList]
  intro k d hk _
  rw [List.getElem?_map, Option.map_eq_some_iff] at hk
  obtain ⟨j, hj, rfl⟩ := hk
  obtain ⟨_, rfl⟩ := List.getElem?_eq_some_iff.1 hj
  rw [DataWord.unwritten_value, List.getElem_range]

/-! ### Results written whole -/

theorem toReg_toList (v : Nat) :
    (toReg v).toList = (List.range 128).map fun j => DataWord.ofWord (BitVec.ofNat 32 (v / 2 ^ (32 * j))) := by
  simp [toReg]

theorem toReg_getElem (v : Nat) (j : Fin 128) : (toReg v)[j] = .ofWord (BitVec.ofNat 32 (v / 2 ^ (32 * j.val))) := by
  simp [toReg]

theorem toReg_allWritten (v : Nat) : allWritten (toReg v).toList = true := by
  simp only [allWritten, List.all_eq_true]
  intro w hw
  obtain ⟨j, hj, rfl⟩ := List.mem_iff_getElem.1 hw
  simp [toReg]

theorem hashRegister_allWritten (v : Vars) : allWritten (hashRegister v).toList = true := rfl

theorem valuesOf_hashRegister (v : Vars) : valuesOf (hashRegister v).toList = wordsOfVars v := rfl

@[simp] theorem varsOfWords_wordsOfVars (v : Vars) : varsOfWords (wordsOfVars v) = v := rfl

/-! ### Views of the operands after an update -/

@[simp] theorem State.finish_nInt (s : State) (code : ErrCode) : (s.finish code).nInt = s.nInt := rfl
@[simp] theorem State.finish_eInt (s : State) (code : ErrCode) : (s.finish code).eInt = s.eInt := rfl
@[simp] theorem State.finish_bInt (s : State) (code : ErrCode) : (s.finish code).bInt = s.bInt := rfl
@[simp] theorem State.finish_digest (s : State) (code : ErrCode) : (s.finish code).digest = s.digest := rfl
@[simp] theorem State.finish_hashVars (s : State) (code : ErrCode) : (s.finish code).hashVars = s.hashVars := rfl

@[simp] theorem State.setR_nInt (s : State) (r : Vector DataWord 128) : (s.setR r).nInt = s.nInt := rfl
@[simp] theorem State.setR_eInt (s : State) (r : Vector DataWord 128) : (s.setR r).eInt = s.eInt := rfl
@[simp] theorem State.setR_bInt (s : State) (r : Vector DataWord 128) : (s.setR r).bInt = s.bInt := rfl
@[simp] theorem State.setR_digest (s : State) (r : Vector DataWord 128) : (s.setR r).digest = s.digest := rfl
@[simp] theorem State.setR_hashVars (s : State) (r : Vector DataWord 128) : (s.setR r).hashVars = s.hashVars := rfl

@[simp] theorem State.setVerifyOk_nInt (s : State) (v : Bool) : (s.setVerifyOk v).nInt = s.nInt := rfl
@[simp] theorem State.setVerifyOk_eInt (s : State) (v : Bool) : (s.setVerifyOk v).eInt = s.eInt := rfl
@[simp] theorem State.setVerifyOk_bInt (s : State) (v : Bool) : (s.setVerifyOk v).bInt = s.bInt := rfl
@[simp] theorem State.setVerifyOk_digest (s : State) (v : Bool) : (s.setVerifyOk v).digest = s.digest := rfl
@[simp] theorem State.setVerifyOk_hashVars (s : State) (v : Bool) : (s.setVerifyOk v).hashVars = s.hashVars := rfl

@[simp] theorem State.setTurns_nInt (s : State) (ts : List Turn) : (s.setTurns ts).nInt = s.nInt := rfl
@[simp] theorem State.setTurns_eInt (s : State) (ts : List Turn) : (s.setTurns ts).eInt = s.eInt := rfl
@[simp] theorem State.setTurns_bInt (s : State) (ts : List Turn) : (s.setTurns ts).bInt = s.bInt := rfl
@[simp] theorem State.setTurns_digest (s : State) (ts : List Turn) : (s.setTurns ts).digest = s.digest := rfl
@[simp] theorem State.setTurns_hashVars (s : State) (ts : List Turn) : (s.setTurns ts).hashVars = s.hashVars := rfl

@[simp] theorem State.issue_nInt (s : State) (v : Word) : (s.issue v).nInt = s.nInt := rfl
@[simp] theorem State.issue_eInt (s : State) (v : Word) : (s.issue v).eInt = s.eInt := rfl
@[simp] theorem State.issue_bInt (s : State) (v : Word) : (s.issue v).bInt = s.bInt := rfl
@[simp] theorem State.issue_digest (s : State) (v : Word) : (s.issue v).digest = s.digest := rfl
@[simp] theorem State.issue_hashVars (s : State) (v : Word) : (s.issue v).hashVars = s.hashVars := rfl

/-! ### Loading message bytes changes MSG alone -/

@[simp] theorem loadBytes_h (bs : List Byte) (s : State) : (loadBytes bs s).h = s.h := by rw [loadBytes]

@[simp] theorem loadBytes_len (bs : List Byte) (s : State) : (loadBytes bs s).len = s.len := by rw [loadBytes]

@[simp] theorem loadBytes_shaActive (bs : List Byte) (s : State) : (loadBytes bs s).shaActive = s.shaActive := by rw [loadBytes]

@[simp] theorem loadBytes_digestValid (bs : List Byte) (s : State) : (loadBytes bs s).digestValid = s.digestValid := by rw [loadBytes]

@[simp] theorem loadBytes_n (bs : List Byte) (s : State) : (loadBytes bs s).n = s.n := by rw [loadBytes]

@[simp] theorem loadBytes_e (bs : List Byte) (s : State) : (loadBytes bs s).e = s.e := by rw [loadBytes]

@[simp] theorem loadBytes_b (bs : List Byte) (s : State) : (loadBytes bs s).b = s.b := by rw [loadBytes]

@[simp] theorem loadBytes_r (bs : List Byte) (s : State) : (loadBytes bs s).r = s.r := by rw [loadBytes]

@[simp] theorem loadBytes_verifyOk (bs : List Byte) (s : State) : (loadBytes bs s).verifyOk = s.verifyOk := by rw [loadBytes]

@[simp] theorem loadBytes_cur (bs : List Byte) (s : State) : (loadBytes bs s).cur = s.cur := by rw [loadBytes]

@[simp] theorem loadBytes_busy (bs : List Byte) (s : State) : (loadBytes bs s).busy = s.busy := by rw [loadBytes]

@[simp] theorem loadBytes_done (bs : List Byte) (s : State) : (loadBytes bs s).done = s.done := by rw [loadBytes]

@[simp] theorem loadBytes_werr (bs : List Byte) (s : State) : (loadBytes bs s).werr = s.werr := by rw [loadBytes]

@[simp] theorem loadBytes_err (bs : List Byte) (s : State) : (loadBytes bs s).err = s.err := by rw [loadBytes]

@[simp] theorem loadBytes_ie (bs : List Byte) (s : State) : (loadBytes bs s).ie = s.ie := by rw [loadBytes]

@[simp] theorem loadBytes_host (bs : List Byte) (s : State) : (loadBytes bs s).host = s.host := by rw [loadBytes]

@[simp] theorem loadBytes_turns (bs : List Byte) (s : State) : (loadBytes bs s).turns = s.turns := by rw [loadBytes]

@[simp] theorem loadBytes_draws (bs : List Byte) (s : State) : (loadBytes bs s).draws = s.draws := by rw [loadBytes]

@[simp] theorem loadBytes_resets (bs : List Byte) (s : State) : (loadBytes bs s).resets = s.resets := by rw [loadBytes]

@[simp] theorem loadBytes_hashVars (bs : List Byte) (s : State) : (loadBytes bs s).hashVars = s.hashVars := by
  rw [State.hashVars, loadBytes_h, State.hashVars]

end Sys2Proof.Machine
end

