-- ==== Sys2Proof/Laws/Bus.lean ====
section
/-! SUPPORT. What a host access can do: the register an access reaches, and the state after a read or a write. -/

namespace Sys2Proof.Machine

open Sys2Proof

/-- If an access goes on with a register, it was a 32-bit aligned access to a mapped offset of the window (R52, R53). -/
theorem onRegister_eq_next {w : Width} {off : Nat} {k : WindowReg → Result} {t : State}
    (h : onRegister w off k = .next t) :
    off < 0x2000 ∧ w = .w32 ∧ off % 4 = 0 ∧ ∃ reg, windowReg off = some reg ∧ k reg = .next t := by
  unfold onRegister at h
  split at h
  · cases h
  split at h
  · cases h
  split at h
  · cases h
  split at h
  · cases h
  · rename_i h1 h2 h3 _ reg hr
    exact ⟨Nat.lt_of_not_le h1, Classical.not_not.1 h2, Classical.not_not.1 h3, reg, hr, h⟩

/-- A read of a register changes at most the accumulator and the draw counter (R55). -/
theorem readReg_next {reg : WindowReg} {s t : State} (h : readReg reg s = .next t) :
    ∃ v, t = s.setAcc v ∨ t = s.countDraw.setAcc v := by
  cases reg <;> simp only [readReg, returnWord, returnAny] at h <;>
    (repeat' split at h) <;> cases h <;> first | exact ⟨_, .inl rfl⟩ | exact ⟨_, .inr rfl⟩

/-- A write that waits for the idle engine either sets WERR or takes effect (R61). -/
theorem whenIdle_cases (s s' : State) :
    (s.busy = true ∧ whenIdle s s' = s.setWerr) ∨ (s.busy = false ∧ whenIdle s s' = s') := by
  cases h : s.busy <;> simp [whenIdle, h]

/-- A write touches none of the state that only completion and reset change (R59). -/
theorem writeReg_results (reg : WindowReg) (v : Word) (s : State) :
    (writeReg reg v s).h = s.h ∧ (writeReg reg v s).len = s.len ∧ (writeReg reg v s).r = s.r
    ∧ (writeReg reg v s).verifyOk = s.verifyOk ∧ (writeReg reg v s).shaActive = s.shaActive
    ∧ (writeReg reg v s).digestValid = s.digestValid ∧ (writeReg reg v s).err = s.err := by
  cases reg <;> simp only [writeReg, whenIdle] <;> (try split) <;> exact ⟨rfl, rfl, rfl, rfl, rfl, rfl, rfl⟩

/-! ### The register at each offset (R39) -/

theorem windowReg_msg (i : Fin 16) : windowReg (0x0040 + 4 * i.val) = some (.msg i) := by
  have hi := i.isLt
  have he : (0x0040 + 4 * i.val - 0x0040) / 4 = i.val := by omega
  rw [windowReg, if_neg (by omega), if_neg (by omega), if_neg (by omega), if_neg (by omega), if_neg (by omega), if_neg (by omega), if_neg (by omega), dif_pos (by omega)]
  simp only [he]

theorem windowReg_h (i : Fin 8) : windowReg (0x0080 + 4 * i.val) = some (.h i) := by
  have hi := i.isLt
  have he : (0x0080 + 4 * i.val - 0x0080) / 4 = i.val := by omega
  rw [windowReg, if_neg (by omega), if_neg (by omega), if_neg (by omega), if_neg (by omega), if_neg (by omega), if_neg (by omega), if_neg (by omega), dif_neg (by omega), dif_pos (by omega)]
  simp only [he]

theorem windowReg_n (i : Fin 128) : windowReg (0x1000 + 4 * i.val) = some (.n i) := by
  have hi := i.isLt
  have he : (0x1000 + 4 * i.val - 0x1000) / 4 = i.val := by omega
  rw [windowReg, if_neg (by omega), if_neg (by omega), if_neg (by omega), if_neg (by omega), if_neg (by omega), if_neg (by omega), if_neg (by omega), dif_neg (by omega), dif_neg (by omega), dif_pos (by omega)]
  simp only [he]

theorem windowReg_e (i : Fin 128) : windowReg (0x1200 + 4 * i.val) = some (.e i) := by
  have hi := i.isLt
  have he : (0x1200 + 4 * i.val - 0x1200) / 4 = i.val := by omega
  rw [windowReg, if_neg (by omega), if_neg (by omega), if_neg (by omega), if_neg (by omega), if_neg (by omega), if_neg (by omega), if_neg (by omega), dif_neg (by omega), dif_neg (by omega), dif_neg (by omega), dif_pos (by omega)]
  simp only [he]

theorem windowReg_b (i : Fin 128) : windowReg (0x1400 + 4 * i.val) = some (.b i) := by
  have hi := i.isLt
  have he : (0x1400 + 4 * i.val - 0x1400) / 4 = i.val := by omega
  rw [windowReg, if_neg (by omega), if_neg (by omega), if_neg (by omega), if_neg (by omega), if_neg (by omega), if_neg (by omega), if_neg (by omega), dif_neg (by omega), dif_neg (by omega), dif_neg (by omega), dif_neg (by omega), dif_pos (by omega)]
  simp only [he]

theorem windowReg_r (i : Fin 128) : windowReg (0x1600 + 4 * i.val) = some (.r i) := by
  have hi := i.isLt
  have he : (0x1600 + 4 * i.val - 0x1600) / 4 = i.val := by omega
  rw [windowReg, if_neg (by omega), if_neg (by omega), if_neg (by omega), if_neg (by omega), if_neg (by omega), if_neg (by omega), if_neg (by omega), dif_neg (by omega), dif_neg (by omega), dif_neg (by omega), dif_neg (by omega), dif_neg (by omega), dif_pos (by omega)]
  simp only [he]

/-- A 32-bit access at a mapped aligned offset reaches its register (R51). -/
theorem onRegister_of_windowReg {off : Nat} {reg : WindowReg} (k : WindowReg → Result) (hlt : off < 0x2000)
    (hal : off % 4 = 0) (hr : windowReg off = some reg) : onRegister .w32 off k = k reg := by
  rw [onRegister, if_neg (by omega), if_neg (by simp), if_neg (by omega), hr]

/-- An aligned offset that reaches a register lies in the window. -/
theorem windowReg_lt {off : Nat} {reg : WindowReg} (hr : windowReg off = some reg) : off < 0x2000 := by
  by_contra hlt
  rw [windowReg, if_neg (by omega), if_neg (by omega), if_neg (by omega), if_neg (by omega), if_neg (by omega),
    if_neg (by omega), if_neg (by omega), dif_neg (by omega), dif_neg (by omega), dif_neg (by omega),
    dif_neg (by omega), dif_neg (by omega), dif_neg (by omega)] at hr
  cases hr

theorem busRead_of_windowReg {off : Nat} {reg : WindowReg} (s : State) (hal : off % 4 = 0)
    (hr : windowReg off = some reg) : busRead .w32 off s = readReg reg s :=
  onRegister_of_windowReg _ (windowReg_lt hr) hal hr

theorem busWrite_of_windowReg {off : Nat} {reg : WindowReg} (v : Word) (s : State) (hal : off % 4 = 0)
    (hr : windowReg off = some reg) : busWrite .w32 off v s = .next (writeReg reg v s) :=
  onRegister_of_windowReg _ (windowReg_lt hr) hal hr

end Sys2Proof.Machine
end

