-- ==== Sys2Proof/Laws/Commands.lean ====
section
/-! SUPPORT. The six commands, each unfolded once: the state it answers, and which of the cases of its rule that is. Frames,
priorities and the invariants follow from these. -/

namespace Sys2Proof.Machine

open Sys2Proof

/-! ### The arms of `exec` -/

theorem exec_shaInit (s : State) : exec .shaInit s = execShaInit s := rfl

theorem exec_shaBlock (s : State) : exec .shaBlock s = execShaBlock s := rfl

theorem exec_shaFinal (r : Nat) (s : State) : exec (.shaFinal r) s = execShaFinal r s := rfl

theorem exec_rsaModexp (s : State) : exec .rsaModexp s = execRsaModexp s := rfl

theorem exec_rsaSign (s : State) : exec .rsaSign s = execRsaSign s := rfl

theorem exec_rsaVerify (s : State) : exec .rsaVerify s = execRsaVerify s := rfl

theorem next_inj {a t : State} (h : (Host.Outcome.next a : Result) = .next t) : t = a := by
  cases h
  rfl

theorem execShaInit_eq (s : State) :
    execShaInit s = .next (((s.setHash (hashRegister initialHash) 0#64).setShaFlags true false).finish .ok) := rfl

theorem lenOverflows_iff (len : BitVec 64) : lenOverflows len = true ↔ 2 ^ 64 - 1 < len.toNat + 512 := by
  simp [lenOverflows]

theorem keyOk_eq_false_iff (n x : Nat) : keyOk n x = false ↔ ¬ (n % 2 = 1 ∧ 1 < x ∧ x < n) := by
  rw [← Bool.not_eq_true, keyOk, Bool.and_eq_true, Bool.and_eq_true, decide_eq_true_iff, decide_eq_true_iff,
    decide_eq_true_iff, and_assoc]

/-- SHA_FINAL of a count a command word can hold. -/
theorem execShaFinal_eq {r : Nat} (hr : r ≤ 63) (s : State) :
    execShaFinal r s = .next (if s.shaActive = false then s.finish .sequence else (finalUpdate r s).finish .ok) := by
  rw [execShaFinal, if_neg (by omega)]
  rfl

/-! ### Completion without error -/

/-- SHA_BLOCK with a message in progress and room in LEN (R116). -/
theorem execShaBlock_of_active {s : State} (ha : s.shaActive = true) (hl : s.len.toNat + 512 ≤ 2 ^ 64 - 1) :
    execShaBlock s
      = .next ((s.setHash (hashRegister (compress s.hashVars (valuesOf s.msg.toList))) (s.len + 512#64)).finish .ok) := by
  rw [execShaBlock, if_neg (by simp [ha]), if_neg (by rw [lenOverflows_iff]; omega)]
  rfl

/-- SHA_FINAL with a message in progress (R117). -/
theorem execShaFinal_of_active {r : Nat} {s : State} (hr : r ≤ 63) (ha : s.shaActive = true) :
    execShaFinal r s = .next ((finalUpdate r s).finish .ok) := by
  rw [execShaFinal_eq hr, if_neg (by simp [ha])]

/-- RSA_MODEXP with a modulus (R146). -/
theorem execRsaModexp_of_modulus {s : State} (hn : s.nInt ≠ 0) :
    execRsaModexp s = .next ((s.setR (toReg (modExp s.bInt s.eInt s.nInt))).finish .ok) := by
  rw [execRsaModexp, if_neg hn, complete_eq]

/-- RSA_SIGN with a digest and a valid key (R147). -/
theorem execRsaSign_of_key {s : State} (hd : s.digestValid = true)
    (hk : s.nInt % 2 = 1 ∧ 1 < s.eInt ∧ s.eInt < s.nInt) :
    execRsaSign s = .next ((s.setR (toReg (modExp (reduceDigest s.digest s.nInt) s.eInt s.nInt))).finish .ok) := by
  rw [execRsaSign, if_neg (by simp [hd]), if_neg (by rwa [keyOk_eq_false_iff, not_not]), complete_eq]

/-- RSA_VERIFY with a digest, a valid key and a signature in range (R148). -/
theorem execRsaVerify_of_key {s : State} (hd : s.digestValid = true)
    (hk : s.nInt % 2 = 1 ∧ 1 < s.eInt ∧ s.eInt < s.nInt) (hb : s.bInt < s.nInt) :
    execRsaVerify s = .next ((verifyUpdate s).finish .ok) := by
  rw [execRsaVerify, if_neg (by simp [hd]), if_neg (by rwa [keyOk_eq_false_iff, not_not]), if_neg (by omega), complete_eq]

/-! ### The cases of each rule -/

/-- What SHA_BLOCK answers (R116). -/
theorem execShaBlock_next {s t : State} (h : execShaBlock s = .next t) :
    (s.shaActive = false ∧ t = s.finish .sequence)
    ∨ (s.shaActive = true ∧ 2 ^ 64 - 1 < s.len.toNat + 512 ∧ t = s.finish .lenOverflow)
    ∨ (s.shaActive = true ∧ ¬ 2 ^ 64 - 1 < s.len.toNat + 512
        ∧ t = (s.setHash (hashRegister (compress s.hashVars (valuesOf s.msg.toList))) (s.len + 512#64)).finish .ok) := by
  obtain rfl := next_inj h
  split
  · exact .inl ⟨‹_›, rfl⟩
  · rename_i ha
    rw [Bool.not_eq_false] at ha
    split
    · exact .inr (.inl ⟨ha, (lenOverflows_iff _).1 ‹_›, rfl⟩)
    · rename_i ho
      exact .inr (.inr ⟨ha, by rwa [lenOverflows_iff] at ho, rfl⟩)

/-- What SHA_FINAL r answers when it answers a next state (R117). -/
theorem execShaFinal_next {r : Nat} {s t : State} (h : execShaFinal r s = .next t) :
    r ≤ 63 ∧ ((s.shaActive = false ∧ t = s.finish .sequence)
    ∨ (s.shaActive = true ∧ t = (finalUpdate r s).finish .ok)) := by
  by_cases hr : r ≤ 63
  · rw [execShaFinal_eq hr] at h
    obtain rfl := next_inj h
    refine ⟨hr, ?_⟩
    split
    · exact .inl ⟨‹_›, rfl⟩
    · rename_i ha
      exact .inr ⟨by rwa [Bool.not_eq_false] at ha, rfl⟩
  · rw [execShaFinal, if_pos (by omega)] at h
    cases h

/-- What RSA_MODEXP answers (R146). -/
theorem execRsaModexp_next {s t : State} (h : execRsaModexp s = .next t) :
    (s.nInt = 0 ∧ t = s.finish .modZero)
    ∨ (s.nInt ≠ 0 ∧ t = (s.setR (toReg (modExp s.bInt s.eInt s.nInt))).finish .ok) := by
  obtain rfl := next_inj h
  split
  · exact .inl ⟨‹_›, rfl⟩
  · exact .inr ⟨‹_›, rfl⟩

/-- What RSA_SIGN answers (R147). -/
theorem execRsaSign_next {s t : State} (h : execRsaSign s = .next t) :
    (s.digestValid = false ∧ t = s.finish .noDigest)
    ∨ (s.digestValid = true ∧ ¬ (s.nInt % 2 = 1 ∧ 1 < s.eInt ∧ s.eInt < s.nInt) ∧ t = s.finish .keyInvalid)
    ∨ (s.digestValid = true ∧ (s.nInt % 2 = 1 ∧ 1 < s.eInt ∧ s.eInt < s.nInt)
        ∧ t = (s.setR (toReg (modExp (reduceDigest s.digest s.nInt) s.eInt s.nInt))).finish .ok) := by
  obtain rfl := next_inj h
  split
  · exact .inl ⟨‹_›, rfl⟩
  · rename_i hd
    rw [Bool.not_eq_false] at hd
    split
    · exact .inr (.inl ⟨hd, (keyOk_eq_false_iff _ _).1 ‹_›, rfl⟩)
    · rename_i hk
      rw [keyOk_eq_false_iff, not_not] at hk
      exact .inr (.inr ⟨hd, hk, rfl⟩)

/-- What RSA_VERIFY answers (R148). -/
theorem execRsaVerify_next {s t : State} (h : execRsaVerify s = .next t) :
    (s.digestValid = false ∧ t = (s.setVerifyOk false).finish .noDigest)
    ∨ (s.digestValid = true ∧ ¬ (s.nInt % 2 = 1 ∧ 1 < s.eInt ∧ s.eInt < s.nInt)
        ∧ t = (s.setVerifyOk false).finish .keyInvalid)
    ∨ (s.digestValid = true ∧ (s.nInt % 2 = 1 ∧ 1 < s.eInt ∧ s.eInt < s.nInt) ∧ s.nInt ≤ s.bInt
        ∧ t = (s.setVerifyOk false).finish .invalidSignature)
    ∨ (s.digestValid = true ∧ (s.nInt % 2 = 1 ∧ 1 < s.eInt ∧ s.eInt < s.nInt) ∧ s.bInt < s.nInt
        ∧ t = ((s.setR (toReg (modExp s.bInt s.eInt s.nInt))).setVerifyOk
            (decide (s.digest % s.nInt = modExp s.bInt s.eInt s.nInt))).finish .ok) := by
  obtain rfl := next_inj h
  split
  · exact .inl ⟨‹_›, rfl⟩
  · rename_i hd
    rw [Bool.not_eq_false] at hd
    split
    · exact .inr (.inl ⟨hd, (keyOk_eq_false_iff _ _).1 ‹_›, rfl⟩)
    · rename_i hk
      rw [keyOk_eq_false_iff, not_not] at hk
      split
      · exact .inr (.inr (.inl ⟨hd, hk, ‹_›, rfl⟩))
      · exact .inr (.inr (.inr ⟨hd, hk, Nat.lt_of_not_le ‹_›, rfl⟩))

/-- A well-formed command completes from every state (R88). -/
theorem exec_completes {i : Instr} (hi : i.wellFormed = true) (s : State) : ∃ t, exec i s = .next t := by
  cases i with
  | shaFinal r => exact ⟨_, execShaFinal_eq (by simpa [Instr.wellFormed] using hi) s⟩
  | _ => exact ⟨_, rfl⟩

end Sys2Proof.Machine
end

