-- ==== Sys2Proof/Laws/PerInstr.lean ====
section
/-! SUPPORT. The family of statements made per instruction: the command word of a well-formed command selects its own row of
the opcode table (30_encoding.md R83). -/

namespace Sys2Proof.Laws.TableRow

open Sys2Proof

/-- The command word of a well-formed command matches its row's mask and match. -/
def Statement (i : Instr) : Prop := i.wellFormed = true → selects (encode i) i

theorem shaInit : Statement .shaInit := fun _ => by decide

theorem shaBlock : Statement .shaBlock := fun _ => by decide

theorem shaFinal (r : Nat) : Statement (.shaFinal r) := by
  have key : ∀ r : Fin 64, selects (encode (.shaFinal r.val)) (.shaFinal r.val) := by decide +kernel
  intro h
  have hr : r < 64 := by
    simp only [Instr.wellFormed, decide_eq_true_iff] at h
    omega
  exact key ⟨r, hr⟩

theorem rsaModexp : Statement .rsaModexp := fun _ => by decide

theorem rsaSign : Statement .rsaSign := fun _ => by decide

theorem rsaVerify : Statement .rsaVerify := fun _ => by decide

end Sys2Proof.Laws.TableRow
end

