-- ==== Sys2Proof/Laws/Step.lean ====
section
/-! SUPPORT. What one step can do: the moves of the engine, the host, the bus and the platform, once; and how a run is made
of steps. -/

namespace Sys2Proof.Machine

open Sys2Proof

/-- The state in which the next move is made: the planned move is used up. -/
abbrev State.moved (s : State) : State := s.setTurns s.turns.tail

theorem step_eq (s : State) : step s = takeTurn (nextTurn s) s.moved := rfl

/-- What the engine's move does when it answers a next state (R88). -/
theorem engineStep_next {s t : State} (h : engineStep s = .next t) :
    (s.busy = false ∧ t = s)
    ∨ (s.busy = true ∧ ((∃ i, decode s.cur = .ok i ∧ exec i s = .next t)
        ∨ (∃ x, decode s.cur = .error x ∧ t = s.finish .illegalCmd))) := by
  unfold engineStep at h
  split at h
  · rename_i hb
    refine .inr ⟨hb, ?_⟩
    unfold completeCur at h
    split at h
    · exact .inl ⟨_, ‹_›, h⟩
    · exact .inr ⟨_, ‹_›, next_inj h⟩
  · rename_i hb
    exact .inl ⟨by simpa using hb, next_inj h⟩

/-- What a host access does when it answers a next state: a read returns a word, a write acts on one register. -/
theorem busRead_next {w : Width} {off : Nat} {s t : State} (h : busRead w off s = .next t) :
    ∃ v, t = s.setAcc v ∨ t = s.countDraw.setAcc v := by
  obtain ⟨_, _, _, reg, _, h⟩ := onRegister_eq_next h
  exact readReg_next h

theorem busWrite_next {w : Width} {off : Nat} {v : Word} {s t : State} (h : busWrite w off v s = .next t) :
    ∃ reg, windowReg off = some reg ∧ t = writeReg reg v s := by
  obtain ⟨_, _, _, reg, hr, h⟩ := onRegister_eq_next h
  exact ⟨reg, hr, next_inj h⟩

/-- What an access at a bus address does when it answers a next state. -/
theorem busAccess_next {a : Access} {s t : State} (h : busAccess a s = .next t) :
    (∃ v, t = s.setAcc v ∨ t = s.countDraw.setAcc v) ∨ ∃ reg v, t = writeReg reg v s := by
  cases a with
  | read w addr =>
    simp only [busAccess, atAddress] at h
    split at h
    · cases h
    · exact .inl (busRead_next h)
  | write w addr v =>
    simp only [busAccess, atAddress] at h
    split at h
    · cases h
    · obtain ⟨reg, _, h⟩ := busWrite_next h
      exact .inr ⟨reg, v, h⟩

/-- What the host's move does when it answers a next state (R90): it moves the program counter and then reads, writes or
does nothing. -/
theorem hostStep_next {s t : State} (h : hostStep s = .next t) :
    t = s ∨ ∃ pc, t = s.setPc pc ∨ (∃ v, t = (s.setPc pc).setAcc v ∨ t = (s.setPc pc).countDraw.setAcc v)
      ∨ ∃ reg v, t = writeReg reg v (s.setPc pc) := by
  unfold hostStep at h
  split at h
  · exact .inl (next_inj h)
  · rename_i st _
    cases st with
    | wr off imm =>
      obtain ⟨reg, _, h⟩ := busWrite_next h
      exact .inr ⟨_, .inr (.inr ⟨reg, imm, h⟩)⟩
    | rd off => exact .inr ⟨_, .inr (.inl (busRead_next h))⟩
    | bnz mask target => exact .inr ⟨_, .inl (next_inj h)⟩
    | bz mask target => exact .inr ⟨_, .inl (next_inj h)⟩
    | halt => exact .inl (next_inj h)

/-- What a step does when it answers a next state: an idle engine's turn, a completion, a host move, a bus access or a
platform reset. -/
theorem step_next {s t : State} (h : step s = .next t) :
    (nextTurn s = .engine ∧ engineStep s.moved = .next t)
    ∨ (nextTurn s = .host ∧ hostStep s.moved = .next t)
    ∨ (∃ a, nextTurn s = .bus a ∧ busAccess a s.moved = .next t)
    ∨ (nextTurn s = .reset ∧ t = s.moved.resetEngine) := by
  rw [step_eq] at h
  cases hn : nextTurn s with
  | engine => exact .inl ⟨rfl, by rwa [hn] at h⟩
  | host => exact .inr (.inl ⟨rfl, by rwa [hn] at h⟩)
  | bus a => exact .inr (.inr (.inl ⟨a, rfl, by rwa [hn] at h⟩))
  | reset => exact .inr (.inr (.inr ⟨rfl, by rw [hn] at h; exact next_inj h⟩))

/-! ### Runs behind the host's interface -/

/-- A run of k + 1 steps starts with one step, for any machine behind the host's interface. -/
theorem run_succ (M : Host.Core) (k : Nat) (s : M.State) :
    M.run (k + 1) s = match M.step s with
      | .next s' => M.run k s'
      | .fault r => .fault r
      | .refused r => .refused r := rfl

theorem run_of_next (M : Host.Core) {s t : M.State} (h : M.step s = .next t) (k : Nat) : M.run (k + 1) s = M.run k t := by
  rw [run_succ, h]

theorem run_of_fault (M : Host.Core) {s : M.State} {r : M.Fault} (h : M.step s = .fault r) (k : Nat) :
    M.run (k + 1) s = .fault r := by
  rw [run_succ, h]

theorem run_of_refused (M : Host.Core) {s : M.State} {r : M.Refusal} (h : M.step s = .refused r) (k : Nat) :
    M.run (k + 1) s = .refused r := by
  rw [run_succ, h]

/-- A run goes on from the next state. -/
theorem core_run_of_next {s t : State} (h : step s = .next t) (k : Nat) :
    Sys2Proof.core.run (k + 1) s = Sys2Proof.core.run k t :=
  run_of_next Sys2Proof.core h k

theorem core_run_of_fault {s : State} {r : Fault} (h : step s = .fault r) (k : Nat) :
    Sys2Proof.core.run (k + 1) s = .fault r :=
  run_of_fault Sys2Proof.core h k

theorem core_run_of_refused {s : State} {r : Refusal} (h : step s = .refused r) (k : Nat) :
    Sys2Proof.core.run (k + 1) s = .refused r :=
  run_of_refused Sys2Proof.core h k

end Sys2Proof.Machine
end

