-- ==== Sys2Proof/Tests/Slice0.lean ====
section
/-! SUPPORT. Tests of one step or one function each, with the expected values of spec/95_test_vectors.md (its vector is named
at each test), and, for every obligation with hypotheses, a witness that meets them. -/

namespace Sys2Proof.Tests

-- One theorem at a time: elaborated all at once, their threads' stacks exceed the memory limit of the check.
set_option Elab.async false

open Sys2Proof Sys2Proof.Machine

/-! ### Small states -/

/-- The digest of "abc" (V-SHA-8). -/
def abcDigest : Vars where
  a := 0xBA7816BF#32
  b := 0x8F01CFEA#32
  c := 0x414140DE#32
  d := 0x5DAE2223#32
  e := 0xB00361A3#32
  f := 0x96177A9C#32
  g := 0xB410FF61#32
  h := 0xF20015AD#32

/-- Words of "abc" padded, the block of V-SHA-3. -/
def abcBlock : List Word := 0x61626380#32 :: (List.replicate 14 0x00000000#32 ++ [0x00000018#32])

/-- SHA_INIT just done, MSG all `w`. -/
def active (w : Word) : State :=
  { State.reset with h := hashRegister initialHash, shaActive := true, msg := Vector.replicate 16 (.ofWord w) }

/-- A message in progress with LEN = `len`, MSG all `w`. -/
def activeAt (len : BitVec 64) (w : Word) : State := { active w with len := len }

/-- SHA_INIT just done, MSG[0] = `w`, the rest of MSG unwritten. -/
def activeOne (w : Word) : State :=
  { State.reset with h := hashRegister initialHash, shaActive := true, msg := (State.reset.msg).set 0 (.ofWord w) }

/-- The digest of "abc" in H, VERIFY_OK = 1, and operands n, e and b. -/
def digested (n e b : Nat) : State :=
  { State.reset with
    h := hashRegister abcDigest, len := 24#64, digestValid := true, n := toReg n, e := toReg e, b := toReg b
    r := toReg 5, verifyOk := true }

/-- A command word in flight. -/
def inFlight (v : Word) (s : State) : State := { s with cur := v, busy := true }

/-- The outcome is a next state with the property. -/
def answers (x : Result) (p : State → Bool) : Bool :=
  match x with
  | .next t => p t
  | .fault _ => false
  | .refused _ => false

/-- The outcome is this fault. -/
def faults (x : Result) (f : Fault) : Bool :=
  match x with
  | .next _ => false
  | .fault g => decide (g = f)
  | .refused _ => false

/-- The outcome is this refusal. -/
def refuses (x : Result) (f : Refusal) : Bool :=
  match x with
  | .next _ => false
  | .fault _ => false
  | .refused g => decide (g = f)

/-- The words of H are those of `v`, all written. -/
def hashIs (s : State) (v : Vars) : Bool := decide (s.h = hashRegister v)

/-- A state that answers is a next state. -/
theorem exists_of_answers {x : Result} {p : State → Bool} (h : answers x p = true) : ∃ t, x = .next t ∧ p t = true := by
  cases x with
  | next t => exact ⟨t, rfl, h⟩
  | fault f => cases h
  | refused r => cases h

/-! ### Well-formedness, decoding, encoding -/

theorem test_wellFormed_63 : (Instr.shaFinal 63).wellFormed = true := by decide

/-- R92: a SHA_FINAL "with r = 64" cannot be encoded. -/
theorem test_wellFormed_refuses_64 : (Instr.shaFinal 64).wellFormed = false := by decide

/-- V-CMD-1, word by word: RSV in bits 31:14, NB in 13:8, OP in 7:0. -/
theorem test_decode_shaInit : decode 0b00000000000000000000000000000001#32 = .ok .shaInit := by decide

theorem test_decode_shaBlock : decode 0b00000000000000000000000000000010#32 = .ok .shaBlock := by decide

theorem test_decode_shaFinal : decode 0b00000000000000000011011100000011#32 = .ok (.shaFinal 55) := by decide

theorem test_decode_shaFinal_63 : decode 0b00000000000000000011111100000011#32 = .ok (.shaFinal 63) := by decide

theorem test_decode_rsaModexp : decode 0b00000000000000000000000000010000#32 = .ok .rsaModexp := by decide

theorem test_decode_rsaSign : decode 0b00000000000000000000000000010001#32 = .ok .rsaSign := by decide

theorem test_decode_rsaVerify : decode 0b00000000000000000000000000010010#32 = .ok .rsaVerify := by decide

/-- V-CMD-1, the illegal rows. -/
theorem test_decode_illegal :
    decode 0x00000000#32 = .error (.reservedOp 0x00#8) ∧ decode 0x00000004#32 = .error (.reservedOp 0x04#8)
    ∧ decode 0x00000013#32 = .error (.reservedOp 0x13#8) ∧ decode 0x000000FF#32 = .error (.reservedOp 0xFF#8)
    ∧ decode 0x00000101#32 = .error (.byteCount 1#6) ∧ decode 0x00000112#32 = .error (.byteCount 1#6)
    ∧ decode 0x00004003#32 = .error (.reservedBits 1#18) ∧ decode 0x00010001#32 = .error (.reservedBits 4#18)
    ∧ decode 0x80000010#32 = .error (.reservedBits 0x20000#18) := by decide

/-- R91, R92: the command words. -/
theorem test_encode :
    encode .shaInit = 0x00000001#32 ∧ encode .shaBlock = 0x00000002#32 ∧ encode (.shaFinal 3) = 0x00000303#32
    ∧ encode (.shaFinal 63) = 0x00003F03#32 ∧ encode .rsaModexp = 0x00000010#32 ∧ encode .rsaSign = 0x00000011#32
    ∧ encode .rsaVerify = 0x00000012#32 := by decide

theorem test_decodeTableWord :
    decodeTableWord 32 0x00003803 = some (.shaFinal 56) ∧ decodeTableWord 32 0x00000012 = some .rsaVerify
    ∧ decodeTableWord 32 0x00004003 = none := by decide

/-! ### Functions of the SHA-256 unit -/

/-- V-SHA-1, a rotation and a shift row of each function. -/
theorem test_sigma :
    bigSigma0 0x80000000#32 = 0x20040200#32 ∧ bigSigma1 0x80000000#32 = 0x02100040#32
    ∧ smallSigma0 0x80000000#32 = 0x11002000#32 ∧ smallSigma1 0x80000000#32 = 0x00205000#32
    ∧ bigSigma0 0x12345678#32 = 0x66146474#32 ∧ bigSigma1 0x12345678#32 = 0x3561ABDA#32
    ∧ smallSigma0 0x12345678#32 = 0xE7FCE6EE#32 ∧ smallSigma1 0x12345678#32 = 0xA1F78649#32 := by decide

/-- V-SHA-1, Ch and Maj. -/
theorem test_ch_maj :
    ch 0x6A09E667#32 0xBB67AE85#32 0x3C6EF372#32 = 0x3E67B715#32
    ∧ maj 0x6A09E667#32 0xBB67AE85#32 0x3C6EF372#32 = 0x3A6FE667#32
    ∧ ch 0x510E527F#32 0x9B05688C#32 0x1F83D9AB#32 = 0x1F85C98C#32
    ∧ maj 0x510E527F#32 0x9B05688C#32 0x1F83D9AB#32 = 0x1B0758AF#32 := by decide

/-- V-SHA-2: icbrt(311 · 2^96) = 0x6C67178F2. -/
theorem test_last_constant :
    roundConstants.getD 63 0#32 = 0xC67178F2#32
    ∧ 0x6C67178F2 ^ 3 ≤ 311 * 2 ^ 96 ∧ 311 * 2 ^ 96 < 0x6C67178F3 ^ 3 := by decide

/-- V-SHA-3: W[17], W[31] and W[63] of the block of "abc". -/
theorem test_schedule_abc :
    (schedule abcBlock).getD 17 0#32 = 0x000F0000#32 ∧ (schedule abcBlock).getD 31 0#32 = 0xD3B7973B#32
    ∧ (schedule abcBlock).getD 63 0#32 = 0x12B1EDEB#32 := by decide +kernel

/-- V-SHA-4: the first round of "abc". -/
theorem test_round_abc :
    (round initialHash (roundConstants.getD 0 0#32) 0x61626380#32).a = 0x5D6AEBCD#32
    ∧ (round initialHash (roundConstants.getD 0 0#32) 0x61626380#32).e = 0xFA2A4622#32 := by decide

/-- V-SHA-5, r = 55: one block. -/
theorem test_pad_55 :
    pad (List.replicate 55 0x61#8) 440#64
      = [List.replicate 13 0x61616161#32 ++ [0x61616180#32, 0x00000000#32, 0x000001B8#32]] := by decide +kernel

/-- V-SHA-5, r = 56: two blocks. -/
theorem test_pad_56 :
    pad (List.replicate 56 0x61#8) 448#64
      = [List.replicate 14 0x61616161#32 ++ [0x80000000#32, 0x00000000#32],
         List.replicate 15 0x00000000#32 ++ [0x000001C0#32]] := by decide +kernel

/-- V-RSA-K: h("abc") as an integer. -/
theorem test_digestInt_abc :
    digestInt (wordsOfVars abcDigest) = 0xba7816bf8f01cfea414140de5dae2223b00361a396177a9cb410ff61f20015ad := by
  decide +kernel

/-- V-BUS-10: N[0] and N[1] of key B's modulus. -/
theorem test_toReg_keyB :
    (toReg 0xB400000AB000000D)[0] = .ofWord 0xB000000D#32 ∧ (toReg 0xB400000AB000000D)[1] = .ofWord 0xB400000A#32
    ∧ (toReg 0xB400000AB000000D)[2] = .ofWord 0#32 := by decide +kernel

/-! ### SHA_INIT -/

/-- V-SHA-10: SHA_INIT in mid-message restarts: H = IV, LEN = 0, STATUS = 0x0000000A. -/
theorem test_shaInit_restarts :
    answers (exec .shaInit (activeAt 1024#64 0x61616161#32))
      (fun t => hashIs t initialHash && t.len == 0#64 && statusWord t == 0x0000000A#32) = true := by decide +kernel

/-! ### SHA_BLOCK -/

/-- V-SHA-6: 64 bytes of 'a'. -/
theorem test_shaBlock_a64 :
    answers (exec .shaBlock (active 0x61616161#32))
      (fun t => t.h.toList.map (·.value) == [0xDF5BB81C#32, 0xE81E0626#32, 0xFB45A894#32, 0x4FD40F31#32, 0xB25E6816#32,
          0xD6D499C1#32, 0xAB904929#32, 0x00635E66#32]
        && t.len == 512#64 && statusWord t == 0x0000000A#32) = true := by decide +kernel

/-- V-SHA-10: LEN = 2^64 − 512 overflows, H and LEN unchanged. -/
theorem test_shaBlock_overflow :
    answers (exec .shaBlock (activeAt 0xFFFFFFFFFFFFFE00#64 0#32))
      (fun t => hashIs t initialHash && t.len == 0xFFFFFFFFFFFFFE00#64 && statusWord t == 0x0000030A#32) = true := by
  decide +kernel

/-! ### SHA_FINAL -/

/-- V-SHA-8, the variant: byte 3 of MSG[0] is ignored and MSG[1] need not be written. -/
theorem test_shaFinal_abc :
    answers (exec (.shaFinal 3) (activeOne 0x616263FF#32))
      (fun t => hashIs t abcDigest && t.len == 24#64 && statusWord t == 0x00000012#32) = true := by decide +kernel

/-- V-SHA-7, r = 56: two blocks. -/
theorem test_shaFinal_56 :
    answers (exec (.shaFinal 56) (active 0x61616161#32))
      (fun t => t.h.toList.map (·.value) == [0xB35439A4#32, 0xAC6F0948#32, 0xB6D6F9E3#32, 0xC6AF0F5F#32, 0x590CE20F#32,
          0x1BDE7090#32, 0xEF797068#32, 0x6EC6738A#32] && t.len == 448#64) = true := by decide +kernel

/-! ### RSA_MODEXP -/

/-- V-RSA-2: b = 2, x = 4095, n = 2^4096 − 1 gives 2^4095: R[127] = 0x80000000, R[0] = 0. -/
theorem test_rsaModexp_widest :
    answers (exec .rsaModexp (digested (2 ^ 4096 - 1) 4095 2))
      (fun t => decide (t.rInt = 2 ^ 4095) && t.r[127] == .ofWord 0x80000000#32 && t.r[0] == .ofWord 0#32
        && statusWord t == 0x00000032#32) = true := by decide +kernel

/-- V-RSA-3: MOD_ZERO leaves R unchanged. -/
theorem test_rsaModexp_zero :
    answers (exec .rsaModexp (digested 0 13 4))
      (fun t => decide (t.rInt = 5) && statusWord t == 0x00000532#32) = true := by decide +kernel

/-! ### RSA_SIGN -/

/-- V-RSA-13: key B, "abc". -/
theorem test_rsaSign_keyB :
    answers (exec .rsaSign (digested 0xB400000AB000000D 0x8F3028D6FFFF0001 0))
      (fun t => decide (t.rInt = 0x331DC1888CF0E52B) && t.err == 0x0#4) = true := by decide +kernel

/-- V-RSA-24: E = n is KEY_INVALID and VERIFY_OK stays. -/
theorem test_rsaSign_key_invalid :
    answers (exec .rsaSign (digested 3233 3233 0))
      (fun t => decide (t.rInt = 5) && statusWord t == 0x00000632#32) = true := by decide +kernel

/-! ### RSA_VERIFY -/

/-- V-RSA-11 and V-RSA-12: 1480 is accepted, 1481 rejected without an error. -/
theorem test_rsaVerify_keyA :
    answers (exec .rsaVerify (digested 3233 17 1480))
      (fun t => decide (t.rInt = 256) && statusWord t == 0x00000032#32) = true
    ∧ answers (exec .rsaVerify (digested 3233 17 1481))
      (fun t => decide (t.rInt = 2128) && statusWord t == 0x00000012#32) = true := by decide +kernel

/-- V-RSA-24: s = n is INVALID_SIGNATURE, R unchanged, VERIFY_OK cleared. -/
theorem test_rsaVerify_range :
    answers (exec .rsaVerify (digested 3233 17 3233))
      (fun t => decide (t.rInt = 5) && statusWord t == 0x00000712#32) = true := by decide +kernel

/-! ### The step -/

/-- SHA_INIT runs as the first command after reset: STATUS = 0x0000000A (R115). -/
theorem test_step_shaInit : answers (step (State.reset.withFetchWord 32 1)) (fun t => statusWord t == 0x0000000A#32) = true := by
  decide +kernel

/-- V-SHA-10: SHA_FINAL 3 after reset is SEQUENCE, STATUS = 0x00000202. -/
theorem test_step_shaFinal_after_reset :
    answers (step (State.reset.withFetchWord 32 0x303)) (fun t => statusWord t == 0x00000202#32) = true := by
  decide +kernel

/-- V-SHA-11: an illegal word reports ILLEGAL_CMD and leaves the rest. -/
theorem test_step_illegal :
    answers (step ((active 0#32).withFetchWord 32 0x00000102)) (fun t => statusWord t == 0x0000010A#32
      && hashIs t initialHash) = true := by decide +kernel

/-- RSA_MODEXP runs as the first command after reset, on unwritten operands: it completes (R38, R88). -/
theorem test_step_rsaModexp_after_reset :
    answers (step (State.reset.withFetchWord 32 0x10)) (fun _ => true) = true := by decide +kernel

/-- A term that no command word decodes to is refused by name (R82). -/
theorem test_exec_not_encodable : refuses (exec (.shaFinal 64) State.reset) (.notEncodable "SHA_FINAL") = true := by
  decide +kernel

/-! ### The register window -/

/-- V-BUS-1. -/
theorem test_bus_reset_reads :
    [0x0000, 0x0004, 0x0008, 0x000C, 0x0010, 0x0014, 0x0018].map (fun off =>
        match busRead .w32 off State.reset with
        | .next t => some t.host.acc
        | .fault _ => none
        | .refused _ => none)
      = [some 0x53485253#32, some 0x00010080#32, some 0#32, some 0#32, some 0#32, some 0#32, some 0#32] := by
  decide +kernel

/-- V-BUS-2: a misaligned and an unmapped offset; the last word of R is mapped. -/
theorem test_bus_errors :
    faults (busRead .w32 0x042 State.reset) (.busError .misaligned 0x042) = true
    ∧ faults (busWrite .w32 0x01C 0#32 State.reset) (.busError .unmapped 0x01C) = true
    ∧ faults (busRead .w16 0x040 State.reset) (.busError .width 0x040) = true
    ∧ windowReg 0x17FC = some (.r 127) := by decide +kernel

/-- V-BUS-3: 0xFFFFFFFF written to STATUS clears DONE and WERR only. -/
theorem test_bus_status_write :
    answers (busWrite .w32 0x00C 0xFFFFFFFF#32
        { State.reset with done := true, werr := true, digestValid := true, err := 0x2#4 })
      (fun t => statusWord t == 0x00000210#32) = true := by decide +kernel

/-- V-BUS-4: with DONE = 1, setting IE asserts IRQ, and CTRL reads 1. -/
theorem test_bus_ctrl_write :
    answers (busWrite .w32 0x008 0xFFFFFFFF#32 { State.reset with done := true })
      (fun t => irq t && ctrlWord t == 0x00000001#32) = true := by decide +kernel

/-- V-BUS-6: a write to N[0] while busy is ignored and sets WERR. -/
theorem test_bus_busy_write :
    answers (busWrite .w32 0x1000 7#32 (inFlight 0x10#32 State.reset))
      (fun t => !t.n[0].written && t.werr && t.busy) = true := by decide +kernel

/-- V-BUS-7: MSG[5] takes the written value. -/
theorem test_bus_write_msg :
    answers (busWrite .w32 0x054 0x12345678#32 State.reset) (fun t => decide (t.msg[5] = .ofWord 0x12345678#32)) = true := by
  decide +kernel

/-- V-BUS-8: after reset a read of MSG[0] gives "an unspecified value on the hardware", a free value here (log 1). -/
theorem test_bus_unwritten :
    busRead .w32 0x040 State.reset = .next (State.reset.setAcc (Config.unwrittenWord 0 0x040)) := rfl

/-- R202: the next reset draws the value anew. -/
theorem test_bus_unwritten_after_reset :
    busRead .w32 0x040 State.reset.resetEngine
      = .next (State.reset.resetEngine.setAcc (Config.unwrittenWord 1 0x040)) := rfl

/-! ### Host notation -/

/-- V-BUS-9: `LDMSG "abcde"`. -/
theorem test_ldmsg :
    stmtLdmsg [0x61#8, 0x62#8, 0x63#8, 0x64#8, 0x65#8] = [.wr 0x040 0x61626364#32, .wr 0x044 0x65000000#32] := by
  decide +kernel

/-- R91: `CMD SHA_FINAL, 3`, `CLR` and the loop of `WAIT`. -/
theorem test_pseudo :
    stmtCmd (.shaFinal 3) = [.wr 0x010 0x00000303#32] ∧ stmtClr = [.wr 0x00C 0x00000006#32]
    ∧ stmtWait 7 = [.rd 0x00C, .bnz 0x1#32 7] ∧ stmtChkerr 9 = [.rd 0x00C, .bnz 0xF00#32 9]
    ∧ (stmtLdbig 0x1000 0xB400000AB000000D).take 2 = [.wr 0x1000 0xB000000D#32, .wr 0x1004 0xB400000A#32]
    ∧ stmtRddig.getLast? = some (.rd 0x09C) ∧ (stmtRdbig 0x1600).getLast? = some (.rd 0x17FC) := by decide +kernel

/-! ### Witnesses: a state and operands that meet the hypotheses of each obligation -/

/-- The invariant on a state whose fields are concrete. -/
theorem inv_of_checks {s : State}
    (h : (!s.shaActive || !s.digestValid) && (!(s.shaActive || s.digestValid) || allWritten s.h.toList)
      && (allWritten s.h.toList || allUnwritten s.h.toList) && (allWritten s.r.toList || allUnwritten s.r.toList)
      && (!s.shaActive || decide (s.len.toNat % 512 = 0)) && decide (s.len.toNat % 8 = 0) && decide (s.err.toNat ≤ 7)
      && (!s.verifyOk || allWritten s.r.toList) = true) : EngineInv s := by
  simp only [Bool.and_eq_true, Bool.or_eq_true, Bool.not_eq_true', decide_eq_true_eq, Bool.or_eq_false_iff] at h
  obtain ⟨⟨⟨⟨⟨⟨⟨h1, h2⟩, h3⟩, h4⟩, h5⟩, h6⟩, h7⟩, h8⟩ := h
  refine ⟨?_, ?_, h3, h4, ?_, h6, h7, ?_⟩
  · rintro ha
    rcases h1 with h1 | h1
    · rw [h1] at ha
      cases ha
    · exact h1
  · rintro (ha | ha) <;> rcases h2 with ⟨h, h'⟩ | h
    · rw [h] at ha
      cases ha
    · exact h
    · rw [h'] at ha
      cases ha
    · exact h
  · rintro ha
    rcases h5 with h5 | h5
    · rw [h5] at ha
      cases ha
    · exact h5
  · rintro ha
    rcases h8 with h8 | h8
    · rw [h8] at ha
      cases ha
    · exact h8

theorem witness_StepKeepsEngineInvariant_digested : EngineInv (digested 3233 17 1480) := inv_of_checks (by decide +kernel)

theorem witness_StepKeepsEngineInvariant_active : EngineInv (active 0#32) := inv_of_checks (by decide +kernel)

theorem witness_StepKeepsEngineInvariant_step : ∃ t, step (inFlight 0x00000012#32 (digested 3233 17 1480)) = .next t := by
  obtain ⟨t, h, _⟩ := exists_of_answers (x := step (inFlight 0x00000012#32 (digested 3233 17 1480))) (p := fun _ => true)
    (by decide +kernel)
  exact ⟨t, h⟩

theorem witness_DecodeEncodeRoundTrip : (Instr.shaFinal 0).wellFormed = true ∧ (Instr.shaFinal 63).wellFormed = true := by
  decide

theorem witness_DecodedWordEncodesBack : decode 0x00003F03#32 = .ok (.shaFinal 63) := by decide

theorem witness_LegalExactlyWhenRowMatches :
    decode 0x00003F03#32 = .ok (.shaFinal 63) ∧ selects 0x00003F03#32 (.shaFinal 63)
    ∧ selects 0x00003F03#32 (.shaFinal 5) := by decide

theorem witness_IllegalWordReportsIllegalCmd :
    (∃ x, decode 0x00004003#32 = .error x) ∧ State.reset.busy = false
    ∧ nextTurn (inFlight 0x00004003#32 State.reset) = .engine ∧ (inFlight 0x00004003#32 State.reset).busy = true
    ∧ (inFlight 0x00004003#32 State.reset).cur = 0x00004003#32 :=
  ⟨⟨.reservedBits 1#18, by decide⟩, by decide, by decide, by decide, by decide⟩

theorem witness_StepRunsDecodedCommand :
    nextTurn (inFlight 0x00003F03#32 State.reset) = .engine ∧ (inFlight 0x00003F03#32 State.reset).busy = true
    ∧ decode (inFlight 0x00003F03#32 State.reset).cur = .ok (.shaFinal 63)
    ∧ nextTurn { State.reset with turns := [.engine] } = .engine
    ∧ ({ State.reset with turns := [.engine] } : State).busy = false := by decide

theorem witness_PlannedMoveComesNext :
    ({ State.reset with turns := [.reset, .host] } : State).turns = .reset :: [.host]
    ∧ (inFlight 1#32 State.reset).turns = [] ∧ (inFlight 1#32 State.reset).busy = true
    ∧ State.reset.turns = [] ∧ State.reset.busy = false := by decide

theorem witness_CmdWriteIssues : State.reset.busy = false ∧ (inFlight 1#32 State.reset).busy = true := by decide

theorem witness_IssuedCommandRuns :
    (Instr.shaFinal 63).wellFormed = true ∧ State.reset.busy = false ∧ State.reset.turns = [] := by decide

theorem witness_CommandCompletesFromEveryState :
    Instr.shaInit.wellFormed = true ∧ Instr.shaBlock.wellFormed = true ∧ (Instr.shaFinal 63).wellFormed = true
    ∧ Instr.rsaModexp.wellFormed = true ∧ Instr.rsaSign.wellFormed = true ∧ Instr.rsaVerify.wellFormed = true := by decide

/-- The operands of the RSA commands written, B included; also for the RSA commands of CommandCompletesFromEveryState. -/
theorem witness_WrittenOperandsDetermineOutcome_rsa :
    EngineInv (digested 3233 17 1480) ∧ Instr.rsaVerify.wellFormed = true
    ∧ operandsWritten .rsaVerify (digested 3233 17 1480) = true ∧ operandsWritten .rsaSign (digested 3233 17 1480) = true
    ∧ operandsWritten .rsaModexp (digested 3233 17 1480) = true :=
  ⟨witness_StepKeepsEngineInvariant_digested, by decide, by decide +kernel, by decide +kernel, by decide +kernel⟩

theorem witness_WrittenOperandsDetermineOutcome_sha :
    EngineInv (active 0#32) ∧ (Instr.shaFinal 63).wellFormed = true ∧ operandsWritten (.shaFinal 63) (active 0#32) = true
    ∧ operandsWritten .shaBlock (active 0#32) = true ∧ operandsWritten .shaInit State.reset = true :=
  ⟨witness_StepKeepsEngineInvariant_active, by decide, by decide +kernel, by decide +kernel, by decide⟩

/-- SHA_INIT just done, MSG[0] written and the other words of MSG unwritten with the value `v`. -/
def activeHolding (v : Word) : State :=
  { active 0#32 with msg := (Vector.replicate 16 (DataWord.unwritten v)).set 0 (.ofWord 0x61626300#32) }

/-- Two states with other values in the unwritten words of MSG, which SHA_FINAL 3 does not consume. -/
theorem witness_WrittenOperandsDetermineOutcome_agree :
    AgreeWhereWritten (activeHolding 1#32) (activeHolding 2#32) ∧ (activeHolding 1#32).msg ≠ (activeHolding 2#32).msg
    ∧ operandsWritten (.shaFinal 3) (activeHolding 1#32) = true ∧ EngineInv (activeHolding 1#32) :=
  ⟨⟨by decide +kernel, by decide +kernel, agreeWhereWritten_self _, agreeWhereWritten_self _, agreeWhereWritten_self _,
    agreeWhereWritten_self _, rfl⟩, by decide +kernel, by decide +kernel, inv_of_checks (by decide +kernel)⟩

/-- Also for the first clause of ErrorCompletionIsPrecise: the completion is one with an error (R178). -/
theorem witness_FirstApplicableErrorIsReported :
    ∃ t, exec .rsaVerify (digested 3233 17 3233) = .next t ∧ t.err ≠ 0x0#4 := by
  obtain ⟨t, h, h'⟩ := exists_of_answers (x := exec .rsaVerify (digested 3233 17 3233)) (p := fun t => decide (t.err ≠ 0x0#4))
    (by decide +kernel)
  exact ⟨t, h, of_decide_eq_true h'⟩

theorem witness_FirstApplicableErrorIsReported_step :
    nextTurn (inFlight 2#32 State.reset) = .engine ∧ (inFlight 2#32 State.reset).busy = true
    ∧ ∃ t, step (inFlight 2#32 State.reset) = .next t := ⟨by decide, by decide, _, rfl⟩

theorem witness_ErrorCompletionIsPrecise_illegal :
    (∃ x, decode (inFlight 0x00000101#32 State.reset).cur = .error x)
    ∧ ∃ t, completeCur (inFlight 0x00000101#32 State.reset) = .next t := ⟨⟨.byteCount 1#6, by decide⟩, _, rfl⟩

theorem witness_ChooseAndMajorityBitwise : (0 : Nat) < 32 ∧ (31 : Nat) < 32 := by decide

theorem witness_SigmaFunctionsBitwise : (0 : Nat) < 32 ∧ (31 : Nat) < 32 := by decide

theorem witness_ConstantsAreRootFractions :
    firstPrimes[0]? = some 2 ∧ firstPrimes[7]? = some 19 ∧ firstPrimes[63]? = some 311 := by decide +kernel

theorem witness_ScheduleRecurrence : abcBlock.length = 16 ∧ (15 : Nat) < 16 ∧ 16 ≤ (63 : Nat) ∧ (63 : Nat) < 64 := by decide

/-- The working variables of V-SHA-4, as a function of the round. -/
def trajectory : Nat → Vars
  | 0 => initialHash
  | t + 1 => round (trajectory t) (roundConstants.getD t 0#32) ((schedule abcBlock).getD t 0#32)

theorem witness_CompressionRunsSixtyFourRounds :
    abcBlock.length = 16 ∧ trajectory 0 = initialHash ∧ ∀ t, t < 64 →
      trajectory (t + 1) =
        round (trajectory t) (roundConstants.getD t 0#32) ((schedule abcBlock).getD t 0#32) :=
  ⟨by decide, rfl, fun _ _ => rfl⟩

theorem witness_PaddingFollowsRule :
    (List.replicate 0 0x61#8).length ≤ 63 ∧ (List.replicate 63 0x61#8).length ≤ 63
    ∧ (0 : Nat) < (List.replicate 63 0x61#8).length ∧ (List.replicate 0 0x61#8).length < 1 ∧ 1 < 64 * 1 - 8
    ∧ (7 : Nat) < 8 ∧ (1 : Nat) < 2 ∧ (15 : Nat) < 16 := by decide

theorem witness_ShaBlockFollowsRule :
    (activeAt 0xFFFFFFFFFFFFFC00#64 0#32).shaActive = true
    ∧ (activeAt 0xFFFFFFFFFFFFFC00#64 0#32).len.toNat + 512 ≤ 2 ^ 64 - 1 := by decide +kernel

theorem witness_ShaBlockFollowsRule_errors :
    State.reset.shaActive = false ∧ (activeAt 0xFFFFFFFFFFFFFE00#64 0#32).shaActive = true
    ∧ 2 ^ 64 - 1 < (activeAt 0xFFFFFFFFFFFFFE00#64 0#32).len.toNat + 512
    ∧ (activeAt 0xFFFFFFFFFFFFFE00#64 0#32).len.toNat % 512 = 0
    ∧ (activeAt 0xFFFFFFFFFFFFFC00#64 0#32).len.toNat % 512 = 0 := by decide +kernel

theorem witness_ShaFinalFollowsRule :
    (63 : Nat) ≤ 63 ∧ (active 0x61616161#32).shaActive = true ∧ (List.replicate 63 0x61#8).length = 63
    ∧ ∀ k, k < 63 → (List.replicate 63 0x61#8)[k]?
        = some (byteOf (k % 4) ((valuesOf (active 0x61616161#32).msg.toList).getD (k / 4) 0#32)) := by decide +kernel

theorem witness_ShaFinalFollowsRule_zero :
    (0 : Nat) ≤ 63 ∧ (activeOne 0#32).shaActive = true ∧ ([] : List Byte).length = 0 := by decide +kernel

theorem witness_ShaFinalFollowsRule_sequence :
    (63 : Nat) ≤ 63 ∧ State.reset.shaActive = false ∧ EngineInv (active 0#32) ∧ (active 0#32).shaActive = true
    ∧ ∃ t, exec (.shaFinal 63) (active 0#32) = .next t := by
  obtain ⟨t, h, _⟩ := exists_of_answers (x := exec (.shaFinal 63) (active 0#32)) (p := fun _ => true) (by decide +kernel)
  exact ⟨by decide, by decide, witness_StepKeepsEngineInvariant_active, by decide, t, h⟩

theorem witness_ShaFinalIgnoresLaterBytes :
    (∃ t, exec (.shaFinal 3) (activeOne 0x61626300#32) = .next t)
    ∧ ∀ k, k < 3 → byteOf (k % 4) ((valuesOf (activeOne 0x616263FF#32).msg.toList).getD (k / 4) 0#32)
        = byteOf (k % 4) ((valuesOf (activeOne 0x61626300#32).msg.toList).getD (k / 4) 0#32) :=
  ⟨⟨_, rfl⟩, by decide +kernel⟩

theorem witness_DigestIntegerIsBigEndian : (wordsOfVars abcDigest).length = 8 ∧ (31 : Nat) < 32 := by decide

theorem witness_CommandSequenceHashesMessage :
    ([] : List Byte).length < 2 ^ 61 ∧ (List.replicate 64 0x61#8).length < 2 ^ 61 := by decide +kernel

theorem witness_ModExpIsModularPower : 1 ≤ (1 : Nat) ∧ 1 ≤ (3233 : Nat) := by decide

theorem witness_OperandIntegersAndWords : (2 ^ 4096 - 1 : Nat) < 2 ^ 4096 := by decide +kernel

theorem witness_RsaModexpFollowsRule : (digested 1 0 0).nInt ≠ 0 ∧ (digested 0 0 0).nInt = 0 := by decide +kernel

/-- The smallest key KeyOK allows (V-RSA-24). -/
theorem witness_RsaSignFollowsRule :
    (digested 3 2 0).digestValid = true ∧ (digested 3 2 0).nInt % 2 = 1 ∧ 1 < (digested 3 2 0).eInt
    ∧ (digested 3 2 0).eInt < (digested 3 2 0).nInt := by decide +kernel

/-- E = 1 and E = n (V-RSA-24); also for the key clause of RsaVerifyFollowsRule. -/
theorem witness_RsaSignFollowsRule_errors :
    State.reset.digestValid = false ∧ (digested 3233 1 0).digestValid = true
    ∧ ¬ ((digested 3233 1 0).nInt % 2 = 1 ∧ 1 < (digested 3233 1 0).eInt
      ∧ (digested 3233 1 0).eInt < (digested 3233 1 0).nInt)
    ∧ ¬ ((digested 3233 3233 0).nInt % 2 = 1 ∧ 1 < (digested 3233 3233 0).eInt
      ∧ (digested 3233 3233 0).eInt < (digested 3233 3233 0).nInt) := by decide +kernel

/-- s = n − 1 is in range (V-RSA-24). -/
theorem witness_RsaVerifyFollowsRule :
    (digested 3233 17 3232).digestValid = true ∧ (digested 3233 17 3232).nInt % 2 = 1
    ∧ 1 < (digested 3233 17 3232).eInt ∧ (digested 3233 17 3232).eInt < (digested 3233 17 3232).nInt
    ∧ (digested 3233 17 3232).bInt < (digested 3233 17 3232).nInt := by decide +kernel

/-- s = n is out of range (V-RSA-24). -/
theorem witness_RsaVerifyFollowsRule_errors :
    State.reset.digestValid = false ∧ (digested 3233 17 3233).digestValid = true ∧ (digested 3233 17 3233).nInt % 2 = 1
    ∧ 1 < (digested 3233 17 3233).eInt ∧ (digested 3233 17 3233).eInt < (digested 3233 17 3233).nInt
    ∧ (digested 3233 17 3233).nInt ≤ (digested 3233 17 3233).bInt := by decide +kernel

/-- Accepted with 1480, and rejected without an error with 1481 (V-RSA-11, V-RSA-12). -/
theorem witness_VerifyAcceptsExactlyOnMatch :
    (∃ t, exec .rsaVerify (digested 3233 17 1480) = .next t ∧ t.verifyOk = true)
    ∧ (∃ t, exec .rsaVerify (digested 3233 17 1481) = .next t)
    ∧ (digested 3233 17 1481).digestValid = true ∧ (digested 3233 17 1481).nInt % 2 = 1
    ∧ 1 < (digested 3233 17 1481).eInt ∧ (digested 3233 17 1481).eInt < (digested 3233 17 1481).nInt
    ∧ (digested 3233 17 1481).bInt < (digested 3233 17 1481).nInt
    ∧ (digested 3233 17 1481).digest % (digested 3233 17 1481).nInt
      ≠ (digested 3233 17 1481).bInt ^ (digested 3233 17 1481).eInt % (digested 3233 17 1481).nInt := by
  obtain ⟨t, h, h'⟩ := exists_of_answers (x := exec .rsaVerify (digested 3233 17 1480)) (p := fun t => t.verifyOk)
    (by decide +kernel)
  obtain ⟨u, hu, _⟩ := exists_of_answers (x := exec .rsaVerify (digested 3233 17 1481)) (p := fun _ => true)
    (by decide +kernel)
  refine ⟨⟨t, h, h'⟩, ⟨u, hu⟩, ?_⟩
  decide +kernel

/-- Also for RsaCommandsArePure and RsaCommandsLeaveShaUnit. -/
theorem witness_RsaResultBelowModulus :
    isRsa .rsaSign = true ∧ ∃ t, exec .rsaSign (digested 3233 2753 0) = .next t ∧ t.err = 0x0#4 := by
  obtain ⟨t, h, h'⟩ := exists_of_answers (x := exec .rsaSign (digested 3233 2753 0)) (p := fun t => decide (t.err = 0x0#4))
    (by decide +kernel)
  exact ⟨by decide, t, h, of_decide_eq_true h'⟩

theorem witness_RsaCommandsArePure :
    isRsa .rsaSign = true ∧ (∃ t, exec .rsaSign (digested 3233 2753 0) = .next t)
    ∧ ({ digested 3233 2753 0 with busy := true } : State).n = (digested 3233 2753 0).n
    ∧ ({ digested 3233 2753 0 with busy := true } : State).e = (digested 3233 2753 0).e
    ∧ ({ digested 3233 2753 0 with busy := true } : State).b = (digested 3233 2753 0).b
    ∧ ({ digested 3233 2753 0 with busy := true } : State).h = (digested 3233 2753 0).h
    ∧ ({ digested 3233 2753 0 with busy := true } : State).digestValid = (digested 3233 2753 0).digestValid := by
  obtain ⟨hi, t, h, _⟩ := witness_RsaResultBelowModulus
  exact ⟨hi, ⟨t, h⟩, rfl, rfl, rfl, rfl, rfl⟩

/-- Key A, "abc": signed with d = 2753 into the state `t`, verified with e = 17 in `u`. -/
theorem witness_SignThenVerifyAccepts :
    Nat.Prime 61 ∧ Nat.Prime 53 ∧ (61 : Nat) ≠ 53 ∧ 61 % 2 = 1 ∧ 53 % 2 = 1 ∧ 17 * 2753 % ((61 - 1) * (53 - 1)) = 1
    ∧ 1 < 17 ∧ 17 < 61 * 53 ∧ 1 < 2753 ∧ 2753 < 61 * 53
    ∧ (digested 3233 2753 0).nInt = 61 * 53 ∧ (digested 3233 2753 0).eInt = 2753
    ∧ ∃ t, exec .rsaSign (digested 3233 2753 0) = .next t
      ∧ ({ t with e := toReg 17, b := toReg 1480 } : State).eInt = 17
      ∧ ({ t with e := toReg 17, b := toReg 1480 } : State).bInt = t.rInt := by
  obtain ⟨t, h, h'⟩ := exists_of_answers (x := exec .rsaSign (digested 3233 2753 0))
    (p := fun t => decide (({ t with e := toReg 17, b := toReg 1480 } : State).eInt = 17
      ∧ ({ t with e := toReg 17, b := toReg 1480 } : State).bInt = t.rInt)) (by decide +kernel)
  refine ⟨by norm_num, by norm_num, by decide, by decide, by decide, by decide, by decide, by decide, by decide, by decide,
    by decide +kernel, by decide +kernel, t, h, of_decide_eq_true h'⟩

/-- Also for ShaCommandsLeaveRsaUnit. -/
theorem witness_CommandsLeaveOperandsAndHost :
    isRsa .shaBlock = false ∧ ∃ t, exec .shaBlock (active 0#32) = .next t := by
  obtain ⟨t, h, _⟩ := exists_of_answers (x := exec .shaBlock (active 0#32)) (p := fun _ => true) (by decide +kernel)
  exact ⟨by decide, t, h⟩

/-- Words 1 to 15 of MSG unwritten, a message in progress. -/
theorem witness_CommandsComputeWithUnspecifiedWords_sha :
    UnwrittenInv (activeOne 0#32) ∧ (activeOne 0#32).shaActive = true ∧ (activeOne 0#32).len.toNat + 512 ≤ 2 ^ 64 - 1
    ∧ (3 : Nat) ≤ 63 ∧ [0#8, 0#8, 0#8].length = 3
    ∧ ∀ k, k < 3 → [0#8, 0#8, 0#8][k]?
        = some (byteOf (k % 4) ((heldWords (activeOne 0#32).resets 0x0040 (activeOne 0#32).msg.toList).getD (k / 4) 0#32)) :=
  ⟨⟨rfl, rfl, unwrittenRegister_valuesOf _ _ _, unwrittenRegister_valuesOf _ _ _, unwrittenRegister_valuesOf _ _ _,
    unwrittenRegister_valuesOf _ _ _⟩, by decide, by decide, by decide, by decide, by decide +kernel⟩

/-- The digest of "abc" and key A in N and E, all of B unwritten. -/
def signing : State := { digested 3233 17 0 with b := State.reset.b }

/-- Key A with B unwritten (RSA_MODEXP, RSA_SIGN) and with B = 1480 (RSA_VERIFY); N = 0 with B unwritten (MOD_ZERO). -/
theorem witness_CommandsComputeWithUnspecifiedWords_rsa :
    UnwrittenInv signing ∧ UnwrittenInv (digested 3233 17 1480) ∧ UnwrittenInv { signing with n := toReg 0 }
    ∧ signing.digestValid = true ∧ allUnwritten signing.b.toList = true
    ∧ intOf (heldWords 0 0x1000 signing.n.toList) = 3233 ∧ intOf (heldWords 0 0x1200 signing.e.toList) = 17
    ∧ intOf (heldWords 0 0x1400 (digested 3233 17 1480).b.toList) = 1480
    ∧ intOf (heldWords 0 0x1000 (toReg 0).toList) = 0 := by
  have hm := unwrittenRegister_valuesOf 0 0x0040 16
  have hb := unwrittenRegister_valuesOf 0 0x1400 128
  have ht := fun base v => heldWords_of_written (resets := 0) (base := base) (toReg_allWritten v)
  exact ⟨⟨hm, rfl, ht _ _, ht _ _, hb, ht _ _⟩, ⟨hm, rfl, ht _ _, ht _ _, ht _ _, ht _ _⟩,
    ⟨hm, rfl, ht _ _, ht _ _, hb, ht _ _⟩, by decide, by decide +kernel, by decide +kernel, by decide +kernel,
    by decide +kernel, by decide +kernel⟩

theorem witness_AcceptedWriteMakesWordWritten : State.reset.busy = false := by decide

theorem witness_WindowMapsEachRegisterOnce : (0x17FC : Nat) % 4 = 0 ∧ (0x0000 : Nat) % 4 = 0 := by decide

theorem witness_BadAccessIsBusError :
    (0x1FFF : Nat) < 0x2000 ∧ Width.w64 ≠ .w32 ∧ (0x1FFF : Nat) % 4 ≠ 0 ∧ (0x1FFC : Nat) % 4 = 0
    ∧ (0x1800 ≤ (0x1FFC : Nat) ∧ (0x1FFC : Nat) ≤ 0x1FFC) ∧ (0x001C ≤ (0x001C : Nat) ∧ (0x001C : Nat) ≤ 0x003C)
    ∧ (0x00A0 ≤ (0x0FFC : Nat) ∧ (0x0FFC : Nat) ≤ 0x0FFC) := by decide

theorem witness_RegisterReadValues :
    (digested 3233 17 1480).busy = false ∧ State.reset.busy = false ∧ (inFlight 1#32 State.reset).busy = true := by
  decide +kernel

theorem unwrittenInv_reset : UnwrittenInv State.reset :=
  ⟨unwrittenRegister_valuesOf _ _ _, unwrittenRegister_valuesOf _ _ _, unwrittenRegister_valuesOf _ _ _,
    unwrittenRegister_valuesOf _ _ _, unwrittenRegister_valuesOf _ _ _, unwrittenRegister_valuesOf _ _ _⟩

theorem witness_ReadingUnwrittenWordIsUnspecified :
    UnwrittenInv State.reset
    ∧ State.reset.busy = false ∧ State.reset.msg[15].written = false ∧ State.reset.h[7].written = false
    ∧ State.reset.n[127].written = false ∧ State.reset.e[127].written = false ∧ State.reset.b[127].written = false
    ∧ State.reset.r[127].written = false := by
  refine ⟨unwrittenInv_reset, ?_⟩
  decide +kernel

/-- A command in flight on the state after reset. -/
theorem witness_StepKeepsUnwrittenInvariant :
    UnwrittenInv (inFlight 1#32 State.reset) ∧ ∃ t, step (inFlight 1#32 State.reset) = .next t :=
  ⟨⟨unwrittenInv_reset.msg, unwrittenInv_reset.h, unwrittenInv_reset.n, unwrittenInv_reset.e, unwrittenInv_reset.b,
    unwrittenInv_reset.r⟩, _, rfl⟩

/-- Also a read that is no ANY read while BUSY = 1: STATUS. -/
theorem witness_ReadsHaveNoSideEffect :
    (∃ t, busRead .w32 0x000C State.reset = .next t) ∧ State.reset.busy = false
    ∧ (∃ t, busRead .w32 0x000C (inFlight 1#32 State.reset) = .next t) ∧ (0x000C : Nat) ≠ 0x0014 ∧ (0x000C : Nat) ≠ 0x0018
    ∧ (∀ i : Fin 8, (0x000C : Nat) ≠ 0x0080 + 4 * i.val) ∧ ∀ j : Fin 128, (0x000C : Nat) ≠ 0x1600 + 4 * j.val :=
  ⟨⟨_, rfl⟩, by decide, ⟨_, rfl⟩, by decide, by decide, fun _ => by omega, fun _ => by omega⟩

theorem witness_InterruptOutputIsLevel :
    (∃ t, exec .shaInit State.reset = .next t) ∧ (0x2#32).getLsbD 1 = true
    ∧ (∃ t, busWrite .w32 0x000C 0x2#32 State.reset = .next t) ∧ ∃ t, busWrite .w32 0x0008 0x1#32 State.reset = .next t :=
  ⟨⟨_, rfl⟩, by decide, ⟨_, rfl⟩, _, rfl⟩

/-- The host clears CTRL.IE: the interrupt falls. -/
theorem witness_InterruptOutputIsLevel_falls :
    ∃ t, step { State.reset with
        ie := true, done := true, host := { acc := 0#32, prog := [.wr 0x0008 0#32], pc := 0 } } = .next t
      ∧ irq t = false := ⟨_, rfl, rfl⟩

/-- A host program with one statement of each kind. -/
def statements : List Stmt := [.wr 0x010 1#32, .rd 0x00C, .bnz 1#32 1, .bz 1#32 0, .halt]

/-- The host about to execute statement `pc` of it. -/
def atStatement (pc : Nat) : State := { State.reset with host := { acc := 0#32, prog := statements, pc := pc } }

theorem witness_HostStatementMeanings :
    (atStatement 0).host.prog[(atStatement 0).host.pc]? = some (.wr 0x010 1#32)
    ∧ (atStatement 1).host.prog[(atStatement 1).host.pc]? = some (.rd 0x00C)
    ∧ (atStatement 2).host.prog[(atStatement 2).host.pc]? = some (.bnz 1#32 1)
    ∧ (atStatement 3).host.prog[(atStatement 3).host.pc]? = some (.bz 1#32 0)
    ∧ (atStatement 4).host.prog[(atStatement 4).host.pc]? = some .halt
    ∧ (atStatement 5).host.prog[(atStatement 5).host.pc]? = none := ⟨rfl, rfl, rfl, rfl, rfl, rfl⟩

theorem witness_PlatformResetFromAnyState : nextTurn { inFlight 1#32 State.reset with turns := [.reset] } = .reset := by decide

/-- A completion changes H; a platform reset changes LEN. -/
theorem witness_OnlyCompletionOrResetChangesResults :
    (∃ t, step (inFlight 1#32 State.reset) = .next t ∧ t.shaActive ≠ State.reset.shaActive)
    ∧ ∃ t, step { activeAt 512#64 0#32 with turns := [.reset] } = .next t ∧ t.len ≠ 512#64 :=
  ⟨⟨_, rfl, by decide⟩, _, rfl, by decide⟩

/-- A step that sets a bit and one that clears it: SHA_ACTIVE by SHA_INIT, DONE by the host's write to STATUS. -/
theorem witness_StatusBitsChangeOnlyAsListed :
    (∃ t, step (inFlight 1#32 State.reset) = .next t ∧ State.reset.shaActive = false ∧ t.shaActive = true)
    ∧ ∃ t, step { State.reset with
        done := true, host := { acc := 0#32, prog := [.wr 0x000C 2#32], pc := 0 } } = .next t ∧ t.done = false :=
  ⟨⟨_, rfl, rfl, rfl⟩, _, rfl, rfl⟩

theorem witness_OperandsAreStable :
    nextTurn (inFlight 1#32 State.reset) = .engine ∧ (inFlight 1#32 State.reset).busy = true
    ∧ nextTurn (inFlight 1#32 State.reset) ≠ .reset ∧ ∃ t, step (inFlight 1#32 State.reset) = .next t :=
  ⟨by decide, by decide, by decide, _, rfl⟩

theorem witness_BusyEngineBecomesIdle : (inFlight 1#32 State.reset).busy = true := by decide

end Sys2Proof.Tests
end

section
/-!
Operand registers as integers (R13): the integer of a word list as a sum, and `toReg` as the words of a number to base 2^32.
-/
namespace Sys2Proof.Machine

/-- R13: word j weighs 2^(32j). -/
theorem intOf_eq_sum (ws : List Word) :
    intOf ws = ∑ j ∈ Finset.range ws.length, (ws.getD j 0#32).toNat * 2 ^ (32 * j) := by
  induction ws with
  | nil => rfl
  | cons w ws ih =>
    have shift (j : Nat) : (ws.getD j 0#32).toNat * 2 ^ (32 * (j + 1))
        = 2 ^ 32 * ((ws.getD j 0#32).toNat * 2 ^ (32 * j)) := by ring
    simp only [intOf, ih, List.length_cons, Finset.sum_range_succ', List.getD_cons_succ, List.getD_cons_zero, shift,
      ← Finset.mul_sum, Nat.mul_zero, pow_zero, mul_one]
    exact Nat.add_comm _ _

/-- The low `n` words of a number, put together again, are the number modulo 2^(32n). -/
theorem intOf_lowWords (n v : Nat) :
    intOf ((List.range n).map fun j => BitVec.ofNat 32 (v / 2 ^ (32 * j))) = v % 2 ^ (32 * n) := by
  induction n generalizing v with
  | zero => simp [intOf, Nat.mod_one]
  | succ n ih =>
    have shift (j : Nat) : v / 2 ^ (32 * (j + 1)) = v / 2 ^ 32 / 2 ^ (32 * j) := by
      rw [Nat.div_div_eq_div_mul, ← pow_add, Nat.mul_succ, Nat.add_comm]
    calc intOf ((List.range (n + 1)).map fun j => BitVec.ofNat 32 (v / 2 ^ (32 * j)))
        = v % 2 ^ 32 + 2 ^ 32 * intOf ((List.range n).map fun j => BitVec.ofNat 32 (v / 2 ^ 32 / 2 ^ (32 * j))) := by
          simp [List.range_succ_eq_map, intOf, Function.comp_def, shift]
      _ = v % (2 ^ 32 * 2 ^ (32 * n)) := by rw [ih, ← Nat.mod_mul]
      _ = v % 2 ^ (32 * (n + 1)) := by rw [← pow_add, Nat.mul_succ, Nat.add_comm]

theorem valuesOf_toReg (v : Nat) :
    valuesOf (toReg v).toList = (List.range 128).map fun j => BitVec.ofNat 32 (v / 2 ^ (32 * j)) := by
  simp [toReg_toList, valuesOf]

/-- A register of 128 words holds 4096 bits of the number. -/
theorem intOf_toReg (v : Nat) : intOf (valuesOf (toReg v).toList) = v % 2 ^ 4096 := by
  rw [valuesOf_toReg, intOf_lowWords]

/-- R141: storing a number below 2^4096 loses no bit. -/
theorem intOf_toReg_of_lt {v : Nat} (hv : v < 2 ^ 4096) : intOf (valuesOf (toReg v).toList) = v := by
  rw [intOf_toReg, Nat.mod_eq_of_lt hv]

theorem toReg_word_written (v : Nat) (j : Fin 128) : (toReg v)[j].written = true := by
  rw [toReg_getElem, DataWord.ofWord_written]

theorem toReg_word_toNat (v : Nat) (j : Fin 128) :
    (toReg v)[j].value.toNat = v / 2 ^ (32 * j.val) % 2 ^ 32 := by
  rw [toReg_getElem, DataWord.ofWord_value, BitVec.toNat_ofNat]

/-- Settles O26: the sum by induction on the words, `toReg` word by word, and the round trip by `intOf_lowWords`. -/
theorem operandIntegersAndWords : Obligations.OperandIntegersAndWords := by
  unfold Obligations.OperandIntegersAndWords
  exact ⟨intOf_eq_sum, fun v j => ⟨toReg_word_written v j, toReg_word_toNat v j⟩, fun _ => intOf_toReg_of_lt⟩

end Sys2Proof.Machine
end

section
/-!
The modular exponentiation datapath (R142, R143) computes the modular power, so its result is below the modulus.
-/
namespace Sys2Proof.Machine

/-- One more bit of the exponent doubles the power and takes in the next factor. -/
theorem modExpLoop_eq (b x n : Nat) : ∀ (i acc : Nat), acc % n = acc →
    modExpLoop b x n i acc = acc ^ 2 ^ i * b ^ (x % 2 ^ i) % n
  | 0, acc, hacc => by simp [modExpLoop, Nat.mod_one, hacc]
  | i + 1, acc, hacc => by
    have square : (acc * acc % n) ^ 2 ^ i ≡ acc ^ 2 ^ (i + 1) [MOD n] := by
      rw [Nat.pow_succ', pow_mul, sq]
      exact (Nat.mod_modEq _ _).pow _
    rw [modExpLoop]
    cases hx : x.testBit i with
    | false =>
      have low : x % 2 ^ (i + 1) = x % 2 ^ i := by rw [Nat.mod_pow_succ, ← Nat.toNat_testBit, hx]; simp
      rw [if_neg Bool.false_ne_true, modExpLoop_eq b x n i _ (Nat.mod_mod _ _), low]
      exact square.mul_right _
    | true =>
      have low : x % 2 ^ (i + 1) = 2 ^ i + x % 2 ^ i := by rw [Nat.mod_pow_succ, ← Nat.toNat_testBit, hx]; simp [Nat.add_comm]
      rw [if_pos rfl, modExpLoop_eq b x n i _ (Nat.mod_mod _ _), low, pow_add b, ← Nat.mul_assoc]
      refine Nat.ModEq.mul_right _ (((Nat.mod_modEq _ _).pow _).trans ?_)
      rw [mul_pow]
      exact square.mul_right _

theorem lt_two_pow_bitLength (x : Nat) : x < 2 ^ bitLength x := by
  unfold bitLength
  split
  · omega
  · exact Nat.lt_log2_self

/-- R142: the reference datapath computes the modular power. -/
theorem modExp_eq_pow (b x n : Nat) : modExp b x n = b ^ x % n := by
  rw [modExp, modExpLoop_eq _ _ _ _ _ (Nat.mod_mod _ _), Nat.mod_eq_of_lt (lt_two_pow_bitLength x)]
  calc ((1 % n) ^ 2 ^ bitLength x * (b % n) ^ x) % n
      = (1 ^ 2 ^ bitLength x * b ^ x) % n := ((Nat.mod_modEq _ _).pow _).mul ((Nat.mod_modEq _ _).pow _)
    _ = b ^ x % n := by rw [one_pow, Nat.one_mul]

theorem modExp_lt (b x : Nat) {n : Nat} (hn : 0 < n) : modExp b x n < n := by
  rw [modExp_eq_pow]
  exact Nat.mod_lt _ hn

theorem reduceDigest_eq_mod (h n : Nat) : reduceDigest h n = h % n := by
  unfold reduceDigest
  split
  · rfl
  · exact (Nat.mod_eq_of_lt (Nat.lt_of_not_le ‹_›)).symm

end Sys2Proof.Machine
end

section
/-!
What a completion can be (R88, R115 to R117, R146 to R148, R180): the outcomes of all six commands as the cases of one inductive
predicate, from which frames and invariants follow by one case split. A computed hash or result is any register that is
written whole, so that no case carries the computation.
-/
namespace Sys2Proof.Machine

/-- The states a command can complete in. -/
inductive Completion (s : State) : Instr → State → Prop
  /-- An error of a command other than RSA_VERIFY (R180). -/
  | error (i : Instr) (hi : i ≠ .rsaVerify) (hc : resultCode i s ≠ .ok) : Completion s i (s.finish (resultCode i s))
  /-- An error of RSA_VERIFY clears VERIFY_OK (R148). -/
  | verifyError (hc : resultCode .rsaVerify s ≠ .ok) :
      Completion s .rsaVerify ((s.setVerifyOk false).finish (resultCode .rsaVerify s))
  /-- SHA_INIT (R115). -/
  | init (h : Vector DataWord 8) (hw : allWritten h.toList = true) :
      Completion s .shaInit (((s.setHash h 0#64).setShaFlags true false).finish .ok)
  /-- SHA_BLOCK without error (R116). -/
  | block (h : Vector DataWord 8) (hw : allWritten h.toList = true) (ha : s.shaActive = true)
      (hlen : s.len.toNat + 512 < 2 ^ 64) (hc : resultCode .shaBlock s = .ok) :
      Completion s .shaBlock ((s.setHash h (s.len + 512#64)).finish .ok)
  /-- SHA_FINAL without error (R117). -/
  | final (r : Nat) (h : Vector DataWord 8) (hw : allWritten h.toList = true)
      (hc : resultCode (.shaFinal r) s = .ok) :
      Completion s (.shaFinal r) (((s.setHash h (s.len + BitVec.ofNat 64 (8 * r))).setShaFlags false true).finish .ok)
  /-- RSA_MODEXP or RSA_SIGN without error: R holds a value below int(N) (R141, R146, R147). -/
  | power (i : Instr) (r : Vector DataWord 128) (hi : isRsa i = true) (hv : i ≠ .rsaVerify)
      (hw : allWritten r.toList = true) (hr : intOf (valuesOf r.toList) < s.nInt) (hc : resultCode i s = .ok) :
      Completion s i ((s.setR r).finish .ok)
  /-- RSA_VERIFY without error, the signature accepted or not (R148, R149). -/
  | verified (r : Vector DataWord 128) (accepted : Bool)
      (hw : allWritten r.toList = true) (hr : intOf (valuesOf r.toList) < s.nInt) (hc : resultCode .rsaVerify s = .ok) :
      Completion s .rsaVerify (((s.setR r).setVerifyOk accepted).finish .ok)

/-! ### The value of R -/

theorem intOf_lt (ws : List Word) : intOf ws < 2 ^ (32 * ws.length) := by
  induction ws with
  | nil => simp [intOf]
  | cons w ws ih =>
    have hw := w.isLt
    rw [intOf, List.length_cons, Nat.mul_succ, Nat.add_comm, pow_add]
    nlinarith

theorem State.nInt_lt (s : State) : s.nInt < 2 ^ 4096 := by
  have hlen : 32 * (valuesOf s.n.toList).length = 4096 := by rw [valuesOf_length, Vector.length_toList]
  exact hlen ▸ intOf_lt (valuesOf s.n.toList)

/-- R141: the register that holds a modular power holds a value below the modulus. -/
theorem intOf_toReg_modExp_lt (s : State) (b x : Nat) (hn : 0 < s.nInt) :
    intOf (valuesOf (toReg (modExp b x s.nInt)).toList) < s.nInt := by
  rw [intOf_toReg_of_lt ((modExp_lt b x hn).trans s.nInt_lt)]
  exact modExp_lt b x hn

/-! ### Every command's outcome is one of them -/

theorem Completion.error_of_code {i : Instr} {s : State} {c : ErrCode} (hi : i ≠ .rsaVerify) (hc : resultCode i s = c)
    (hok : c ≠ .ok) : Completion s i (s.finish c) := by
  subst hc
  exact .error i hi hok

theorem Completion.verifyError_of_code {s : State} {c : ErrCode} (hc : resultCode .rsaVerify s = c) (hok : c ≠ .ok) :
    Completion s .rsaVerify ((s.setVerifyOk false).finish c) := by
  subst hc
  exact .verifyError hok

theorem exec_completion {i : Instr} {s t : State} (h : exec i s = .next t) : Completion s i t := by
  cases i with
  | shaInit =>
    rw [exec_shaInit, execShaInit_eq] at h
    cases h
    exact .init _ (hashRegister_allWritten _)
  | shaBlock =>
    obtain ⟨ha, rfl⟩ | ⟨ha, hl, rfl⟩ | ⟨ha, hl, rfl⟩ := execShaBlock_next h
    · exact .error_of_code (by decide) (by simp [resultCode, ha]) (by decide)
    · exact .error_of_code (by decide) (by rw [resultCode, if_neg (by simp [ha]), if_pos hl]) (by decide)
    · exact .block _ (hashRegister_allWritten _) ha (by omega) (by rw [resultCode, if_neg (by simp [ha]), if_neg hl])
  | shaFinal r =>
    obtain ⟨hr, ⟨ha, rfl⟩ | ⟨ha, rfl⟩⟩ := execShaFinal_next h
    · exact .error_of_code (by simp) (by simp [resultCode, ha]) (by decide)
    · exact .final r _ (hashRegister_allWritten _) (by simp [resultCode, ha])
  | rsaModexp =>
    obtain ⟨hn, rfl⟩ | ⟨hn, rfl⟩ := execRsaModexp_next h
    · exact .error_of_code (by decide) (by simp [resultCode, hn]) (by decide)
    · exact .power _ _ rfl (by decide) (toReg_allWritten _)
        (intOf_toReg_modExp_lt s _ _ (Nat.pos_of_ne_zero hn)) (by simp [resultCode, hn])
  | rsaSign =>
    obtain ⟨hd, rfl⟩ | ⟨hd, hk, rfl⟩ | ⟨hd, hk, rfl⟩ := execRsaSign_next h
    · exact .error_of_code (by decide) (by simp [resultCode, hd]) (by decide)
    · exact .error_of_code (by decide) (by rw [resultCode, if_neg (by simp [hd]), if_pos hk]) (by decide)
    · exact .power _ _ rfl (by decide) (toReg_allWritten _) (intOf_toReg_modExp_lt s _ _ (by omega))
        (by rw [resultCode, if_neg (by simp [hd]), if_neg (not_not.2 hk)])
  | rsaVerify =>
    obtain ⟨hd, rfl⟩ | ⟨hd, hk, rfl⟩ | ⟨hd, hk, hb, rfl⟩ | ⟨hd, hk, hb, rfl⟩ := execRsaVerify_next h
    · exact .verifyError_of_code (by simp [resultCode, hd]) (by decide)
    · exact .verifyError_of_code (by rw [resultCode, if_neg (by simp [hd]), if_pos hk]) (by decide)
    · exact .verifyError_of_code
        (by rw [resultCode, if_neg (by simp [hd]), if_neg (not_not.2 hk), if_pos hb]) (by decide)
    · exact .verified _ _ (toReg_allWritten _) (intOf_toReg_modExp_lt s _ _ (by omega))
        (by rw [resultCode, if_neg (by simp [hd]), if_neg (not_not.2 hk), if_neg (by omega)])

/-- Every completion ends by reporting the code the checks give (R88, R179). -/
theorem Completion.status {i : Instr} {s t : State} (h : Completion s i t) :
    t.done = true ∧ t.busy = false ∧ t.err = (resultCode i s).code := by
  cases h with
  | error | verifyError | init => exact ⟨rfl, rfl, rfl⟩
  | block | final | power | verified => exact ⟨rfl, rfl, by simp [*]⟩

/-- Settles O10: `exec` answers, and every answer is a completion with the code of its checks. -/
theorem commandCompletesFromEveryState : Obligations.CommandCompletesFromEveryState := by
  unfold Obligations.CommandCompletesFromEveryState
  intro i s hi
  obtain ⟨t, ht⟩ := exec_completes hi s
  exact ⟨t, ht, (exec_completion ht).status⟩

/-- A completion reports 0 exactly where no check fails. -/
theorem resultCode_eq_ok_of_err {i : Instr} {s t : State} (h : Completion s i t) (he : t.err = 0x0#4) :
    resultCode i s = .ok := by
  obtain ⟨_, _, herr⟩ := h.status
  exact errCode_code_injective (herr.symm.trans he)

/-- Settles O31: only a completion without error is left, and each of these writes a whole value below int(N) to R. -/
theorem rsaResultBelowModulus : Obligations.RsaResultBelowModulus := by
  unfold Obligations.RsaResultBelowModulus
  intro i s t hi ht he
  have h := exec_completion ht
  have hok := resultCode_eq_ok_of_err h he
  cases h with
  | error _ _ hc | verifyError hc => exact absurd hok hc
  | init | block | final => cases hi
  | power _ _ _ _ hw hr | verified _ _ hw hr => exact ⟨hw, hr⟩

/-! ### Frames -/

/-- Settles O34: no completion's updates name any of these fields. -/
theorem commandsLeaveOperandsAndHost : Obligations.CommandsLeaveOperandsAndHost := by
  unfold Obligations.CommandsLeaveOperandsAndHost
  intro i s t ht
  cases exec_completion ht <;> exact ⟨rfl, rfl, rfl, rfl, rfl, rfl, rfl, rfl, rfl, rfl, rfl⟩

/-- Settles O35: a SHA command ends with an error or writes the SHA unit alone. -/
theorem shaCommandsLeaveRsaUnit : Obligations.ShaCommandsLeaveRsaUnit := by
  unfold Obligations.ShaCommandsLeaveRsaUnit
  intro i s t hi ht
  cases exec_completion ht with
  | error | block => exact ⟨rfl, rfl, fun _ => ⟨rfl, rfl⟩⟩
  | init | final => exact ⟨rfl, rfl, fun h => by cases h⟩
  | power _ _ hrsa => rw [hi] at hrsa; cases hrsa
  | verifyError | verified => cases hi

/-- Settles O36: an RSA command ends with an error or writes R, and VERIFY_OK only as RSA_VERIFY. -/
theorem rsaCommandsLeaveShaUnit : Obligations.RsaCommandsLeaveShaUnit := by
  unfold Obligations.RsaCommandsLeaveShaUnit
  intro i s t hi ht
  cases exec_completion ht with
  | error | power => exact ⟨rfl, rfl, rfl, rfl, fun _ => rfl⟩
  | verifyError | verified => exact ⟨rfl, rfl, rfl, rfl, fun h => absurd rfl h⟩
  | init | block | final => cases hi

end Sys2Proof.Machine
end

section
/-!
What one step can do to the engine (R16, R55, R56, R88, R200), with what lies outside the engine (the host agent, the planned
moves and the draw counter) replaced in one operation.
-/
namespace Sys2Proof.Machine

/-- The state with another host agent, other moves to come and another draw counter: what a move may change outside the
engine. -/
def State.outside (s : State) (host : HostAgent) (turns : List Turn) (draws : Nat) : State :=
  { s with host := host, turns := turns, draws := draws }

/-- The move is one that may write a register of the window. -/
def mayWrite (m : Turn) : Prop := m = .host ∨ ∃ w addr v, m = .bus (.write w addr v)

/-- The states one step can answer. -/
inductive StepEffect (s : State) : State → Prop
  /-- An idle engine's turn, a host statement that writes nothing, or a read (R55, R88, R90). -/
  | quiet (host : HostAgent) (turns : List Turn) (draws : Nat) : StepEffect s (s.outside host turns draws)
  /-- The completion of a legal command (R88). -/
  | completes (i : Instr) (t : State) (hm : nextTurn s = .engine) (hb : s.busy = true) (hi : decode s.cur = .ok i)
      (hc : Completion s.moved i t) : StepEffect s t
  /-- The completion of an illegal word (R84, R172). -/
  | illegal (hm : nextTurn s = .engine) (hb : s.busy = true) : StepEffect s (s.moved.finish .illegalCmd)
  /-- A write to a register (R56). -/
  | writes (host : HostAgent) (turns : List Turn) (draws : Nat) (reg : WindowReg) (v : Word)
      (hm : mayWrite (nextTurn s)) : StepEffect s (writeReg reg v (s.outside host turns draws))
  /-- A platform reset (R200). -/
  | resets (hm : nextTurn s = .reset) : StepEffect s s.moved.resetEngine

theorem busAccess_read_next {w : Width} {addr : Nat} {s t : State} (h : busAccess (.read w addr) s = .next t) :
    ∃ v, t = s.setAcc v ∨ t = s.countDraw.setAcc v := by
  simp only [busAccess, atAddress] at h
  split at h
  · cases h
  · exact busRead_next h

theorem busAccess_write_next {w : Width} {addr : Nat} {v : Word} {s t : State}
    (h : busAccess (.write w addr v) s = .next t) : ∃ reg, t = writeReg reg v s := by
  simp only [busAccess, atAddress] at h
  split at h
  · cases h
  · obtain ⟨reg, _, h⟩ := busWrite_next h
    exact ⟨reg, h⟩

theorem step_effect {s t : State} (h : step s = .next t) : StepEffect s t := by
  obtain ⟨hm, h⟩ | ⟨hm, h⟩ | ⟨a, hm, h⟩ | ⟨hm, rfl⟩ := step_next h
  · obtain ⟨_, rfl⟩ | ⟨hb, ⟨i, hi, h⟩ | ⟨_, _, rfl⟩⟩ := engineStep_next h
    · exact .quiet _ _ _
    · exact .completes i t hm hb hi (exec_completion h)
    · exact .illegal hm hb
  · obtain rfl | ⟨pc, rfl | ⟨v, rfl | rfl⟩ | ⟨reg, v, rfl⟩⟩ := hostStep_next h
    · exact .quiet _ _ _
    · exact .quiet _ _ _
    · exact .quiet _ _ _
    · exact .quiet _ _ _
    · exact .writes _ _ _ reg v (.inl hm)
  · cases a with
    | read w addr =>
      obtain ⟨v, rfl | rfl⟩ := busAccess_read_next h
      · exact .quiet _ _ _
      · exact .quiet _ _ _
    | write w addr v =>
      obtain ⟨reg, rfl⟩ := busAccess_write_next h
      exact .writes _ _ _ reg v (.inr ⟨w, addr, v, hm⟩)
  · exact .resets hm

/-! ### What a write of a register leaves -/

/-- A property of both outcomes of a write that waits for the idle engine (R61) holds of the write. -/
theorem whenIdle_of {P : State → Prop} {s s' : State} (hw : P s.setWerr) (he : P s') : P (whenIdle s s') := by
  obtain ⟨_, h⟩ | ⟨_, h⟩ := whenIdle_cases s s'
  · rwa [h]
  · rwa [h]

/-- R61: no write reaches an operand register or CUR of a busy engine. -/
theorem writeReg_operands_of_busy (reg : WindowReg) (v : Word) {s : State} (hb : s.busy = true) :
    (writeReg reg v s).msg = s.msg ∧ (writeReg reg v s).n = s.n ∧ (writeReg reg v s).e = s.e
    ∧ (writeReg reg v s).b = s.b ∧ (writeReg reg v s).cur = s.cur := by
  have ignored (s' : State) : whenIdle s s' = s.setWerr := if_pos hb
  cases reg <;> simp only [writeReg, ignored] <;> exact ⟨rfl, rfl, rfl, rfl, rfl⟩

/-- A write never ends a command (R30). -/
theorem writeReg_busy_of_busy (reg : WindowReg) (v : Word) {s : State} (hb : s.busy = true) :
    (writeReg reg v s).busy = true := by
  have ignored (s' : State) : whenIdle s s' = s.setWerr := if_pos hb
  cases reg <;> simp only [writeReg, ignored] <;> exact hb

/-- A write never sets DONE (R31). -/
theorem writeReg_done_of_not_done (reg : WindowReg) (v : Word) {s : State} (hd : s.done = false) :
    (writeReg reg v s).done = false := by
  cases reg with
  | status => simp [writeReg, hd]
  | cmd | msg | n | e | b => exact whenIdle_of (P := fun t => t.done = false) hd hd
  | _ => exact hd

end Sys2Proof.Machine
end

section
/-!
The invariant of the engine (R25, R28, R38, R116, R171): what each update asks for to keep it, then completions, then steps.
-/
namespace Sys2Proof.Machine

/-- The invariant speaks of H, R, LEN, the three flags and ERR alone. -/
theorem EngineInv.congr {s t : State} (hs : EngineInv s) (hh : t.h = s.h) (hlen : t.len = s.len) (hr : t.r = s.r)
    (hv : t.verifyOk = s.verifyOk) (ha : t.shaActive = s.shaActive) (hd : t.digestValid = s.digestValid)
    (he : t.err = s.err) : EngineInv t where
  exclusive := by rw [ha, hd]; exact hs.exclusive
  hashWritten := by rw [ha, hd, hh]; exact hs.hashWritten
  hashWhole := by rw [hh]; exact hs.hashWhole
  resultWhole := by rw [hr]; exact hs.resultWhole
  lenBlocks := by rw [ha, hlen]; exact hs.lenBlocks
  lenBytes := by rw [hlen]; exact hs.lenBytes
  errProduced := by rw [he]; exact hs.errProduced
  verifyWritten := by rw [hv, hr]; exact hs.verifyWritten

theorem EngineInv.finish {s : State} (hs : EngineInv s) (code : ErrCode) : EngineInv (s.finish code) :=
  { hs with errProduced := errCode_le_seven code }

/-- A hash written whole keeps the invariant with any length and flags that fit together (R25, R116). -/
theorem EngineInv.setHash {s : State} (hs : EngineInv s) {h : Vector DataWord 8} (hw : allWritten h.toList = true)
    {len : BitVec 64} {active valid : Bool} (hx : active = true → valid = false)
    (hb : active = true → len.toNat % 512 = 0) (h8 : len.toNat % 8 = 0) :
    EngineInv ((s.setHash h len).setShaFlags active valid) where
  exclusive := hx
  hashWritten _ := hw
  hashWhole := .inl hw
  resultWhole := hs.resultWhole
  lenBlocks := hb
  lenBytes := h8
  errProduced := hs.errProduced
  verifyWritten := hs.verifyWritten

/-- A result written whole keeps the invariant (R38). -/
theorem EngineInv.setR {s : State} (hs : EngineInv s) {r : Vector DataWord 128} (hw : allWritten r.toList = true) :
    EngineInv (s.setR r) :=
  { hs with resultWhole := .inl hw, verifyWritten := fun _ => hw }

/-- VERIFY_OK may be set only beside a written R (R28). -/
theorem EngineInv.setVerifyOk {s : State} (hs : EngineInv s) {v : Bool} (hw : v = true → allWritten s.r.toList = true) :
    EngineInv (s.setVerifyOk v) :=
  { hs with verifyWritten := hw }

theorem EngineInv.afterReset (resets : Nat) : EngineInv (State.afterReset resets) where
  exclusive h := by cases h
  hashWritten h := by rcases h with h | h <;> cases h
  hashWhole := .inr (unwrittenRegister_allUnwritten _ _ _)
  resultWhole := .inr (unwrittenRegister_allUnwritten _ _ _)
  lenBlocks h := by cases h
  lenBytes := rfl
  errProduced := Nat.zero_le 7
  verifyWritten h := by cases h

theorem EngineInv.outside {s : State} (hs : EngineInv s) (host : HostAgent) (turns : List Turn) (draws : Nat) :
    EngineInv (s.outside host turns draws) :=
  hs.congr rfl rfl rfl rfl rfl rfl rfl

theorem EngineInv.writeReg {s : State} (hs : EngineInv s) (reg : WindowReg) (v : Word) : EngineInv (writeReg reg v s) := by
  obtain ⟨hh, hlen, hr, hv, ha, hd, he⟩ := writeReg_results reg v s
  exact hs.congr hh hlen hr hv ha hd he

theorem Completion.engineInv {i : Instr} {s t : State} (hs : EngineInv s) (h : Completion s i t) : EngineInv t := by
  cases h with
  | error => exact hs.finish _
  | verifyError => exact (hs.setVerifyOk (by simp)).finish _
  | init h hw => exact (hs.setHash hw (by simp) (by simp) rfl).finish _
  | block h hw ha hroom =>
    have hlen : (s.len + 512#64).toNat = s.len.toNat + 512 := BitVec.toNat_add_of_lt hroom
    have hblocks := hs.lenBlocks ha
    exact (hs.setHash hw hs.exclusive (fun _ => by omega) (by omega)).finish _
  | final r h hw =>
    have hbytes := hs.lenBytes
    refine (hs.setHash hw (by simp) (by simp) ?_).finish _
    rw [BitVec.toNat_add, BitVec.toNat_ofNat]
    omega
  | power _ r _ _ hw => exact (hs.setR hw).finish _
  | verified r _ hw => exact ((hs.setR hw).setVerifyOk fun _ => hw).finish _

/-- Settles O52: every flag is 0 and no word of H or R is written. -/
theorem resetMeetsEngineInvariant : Obligations.ResetMeetsEngineInvariant := by
  unfold Obligations.ResetMeetsEngineInvariant
  exact EngineInv.afterReset 0

/-- Settles O55: by the effects of a step; only a completion or a reset touches what the invariant speaks of. -/
theorem stepKeepsEngineInvariant : Obligations.StepKeepsEngineInvariant := by
  unfold Obligations.StepKeepsEngineInvariant
  intro s t hs h
  have moved : EngineInv s.moved := hs.outside _ _ _
  cases step_effect h with
  | quiet => exact hs.outside _ _ _
  | completes _ _ _ _ _ hc => exact hc.engineInv moved
  | illegal => exact moved.finish _
  | writes _ _ _ reg v => exact (hs.outside _ _ _).writeReg reg v
  | resets => exact (EngineInv.afterReset _).outside _ _ _

end Sys2Proof.Machine
end

section
/-!
What unwritten words hold (R38, R202; log 1): a word keeps its unspecified value until it is written, and a reset draws new ones.
-/
namespace Sys2Proof.Machine

/-- Writing a word of a register leaves the others what they hold (R57). -/
theorem valuesOf_eq_heldWords_set {n resets base : Nat} {ws : Vector DataWord n}
    (h : valuesOf ws.toList = heldWords resets base ws.toList) (i : Fin n) (v : Word) :
    valuesOf (ws.set i (.ofWord v)).toList = heldWords resets base (ws.set i (.ofWord v)).toList := by
  rw [valuesOf_eq_heldWords_iff, Vector.toList_set]
  intro k d hk hd
  rw [List.getElem?_set] at hk
  split at hk
  · have : DataWord.ofWord v = d := by simpa using (Option.ite_none_right_eq_some.1 hk).2
    rw [← this] at hd
    cases hd
  · exact valuesOf_eq_heldWords_iff.1 h k d hk hd

/-- A register whose words hold what they should gives the unspecified value at the offset of an unwritten word. -/
theorem value_of_unwritten {n resets base : Nat} {ws : Vector DataWord n}
    (h : valuesOf ws.toList = heldWords resets base ws.toList) {i : Fin n} (hw : ws[i].written = false) :
    ws[i].value = Config.unwrittenWord resets (base + 4 * i.val) :=
  valuesOf_eq_heldWords_iff.1 h i.val ws[i] (by simp) hw

/-- The invariant speaks of the data words and of the number of resets alone. -/
theorem UnwrittenInv.congr {s t : State} (hs : UnwrittenInv s) (hmsg : t.msg = s.msg) (hh : t.h = s.h) (hn : t.n = s.n)
    (he : t.e = s.e) (hb : t.b = s.b) (hr : t.r = s.r) (hres : t.resets = s.resets) : UnwrittenInv t where
  msg := by rw [hmsg, hres]; exact hs.msg
  h := by rw [hh, hres]; exact hs.h
  n := by rw [hn, hres]; exact hs.n
  e := by rw [he, hres]; exact hs.e
  b := by rw [hb, hres]; exact hs.b
  r := by rw [hr, hres]; exact hs.r

theorem UnwrittenInv.afterReset (resets : Nat) : UnwrittenInv (State.afterReset resets) where
  msg := unwrittenRegister_valuesOf _ _ _
  h := unwrittenRegister_valuesOf _ _ _
  n := unwrittenRegister_valuesOf _ _ _
  e := unwrittenRegister_valuesOf _ _ _
  b := unwrittenRegister_valuesOf _ _ _
  r := unwrittenRegister_valuesOf _ _ _

theorem UnwrittenInv.outside {s : State} (hs : UnwrittenInv s) (host : HostAgent) (turns : List Turn) (draws : Nat) :
    UnwrittenInv (s.outside host turns draws) :=
  hs.congr rfl rfl rfl rfl rfl rfl rfl

theorem UnwrittenInv.setHash {s : State} (hs : UnwrittenInv s) {h : Vector DataWord 8} (hw : allWritten h.toList = true)
    (len : BitVec 64) : UnwrittenInv (s.setHash h len) :=
  { hs with h := heldWords_of_written hw }

theorem UnwrittenInv.setR {s : State} (hs : UnwrittenInv s) {r : Vector DataWord 128} (hw : allWritten r.toList = true) :
    UnwrittenInv (s.setR r) :=
  { hs with r := heldWords_of_written hw }

theorem UnwrittenInv.writeReg {s : State} (hs : UnwrittenInv s) (reg : WindowReg) (v : Word) :
    UnwrittenInv (writeReg reg v s) := by
  have ignored : UnwrittenInv s.setWerr := hs.congr rfl rfl rfl rfl rfl rfl rfl
  cases reg with
  | msg i => exact whenIdle_of ignored { hs with msg := valuesOf_eq_heldWords_set hs.msg i v }
  | n j => exact whenIdle_of ignored { hs with n := valuesOf_eq_heldWords_set hs.n j v }
  | e j => exact whenIdle_of ignored { hs with e := valuesOf_eq_heldWords_set hs.e j v }
  | b j => exact whenIdle_of ignored { hs with b := valuesOf_eq_heldWords_set hs.b j v }
  | cmd => exact whenIdle_of ignored (hs.congr rfl rfl rfl rfl rfl rfl rfl)
  | ctrl | status => exact hs.congr rfl rfl rfl rfl rfl rfl rfl
  | id | cfg | lenLo | lenHi | h | r => exact ignored

theorem Completion.unwrittenInv {i : Instr} {s t : State} (hs : UnwrittenInv s) (h : Completion s i t) : UnwrittenInv t := by
  cases h with
  | error | verifyError => exact hs.congr rfl rfl rfl rfl rfl rfl rfl
  | init _ hw | block _ hw | final _ _ hw => exact (hs.setHash hw s.len).congr rfl rfl rfl rfl rfl rfl rfl
  | power _ _ _ _ hw | verified _ _ hw => exact (hs.setR hw).congr rfl rfl rfl rfl rfl rfl rfl

/-- Settles O53: `unwrittenRegister` gives each word the unspecified value of its offset. -/
theorem resetMeetsUnwrittenInvariant : Obligations.ResetMeetsUnwrittenInvariant := by
  unfold Obligations.ResetMeetsUnwrittenInvariant
  exact UnwrittenInv.afterReset 0

/-- Settles O54: by the effects of a step; a write, a hash or a result makes words written, a reset renews all of them. -/
theorem stepKeepsUnwrittenInvariant : Obligations.StepKeepsUnwrittenInvariant := by
  unfold Obligations.StepKeepsUnwrittenInvariant
  intro s t hs h
  have moved : UnwrittenInv s.moved := hs.outside _ _ _
  cases step_effect h with
  | quiet => exact hs.outside _ _ _
  | completes _ _ _ _ _ hc => exact hc.unwrittenInv moved
  | illegal => exact moved.congr rfl rfl rfl rfl rfl rfl rfl
  | writes _ _ _ reg v => exact (hs.outside _ _ _).writeReg reg v
  | resets => exact (UnwrittenInv.afterReset _).outside _ _ _

end Sys2Proof.Machine
end

section
/-!
What changes the status bits and the operands over one step (R20, R24, R25, R28, R30 to R32, R61, R72).
-/
namespace Sys2Proof.Machine

/-- A bit that goes from `a` to `b` rises only for the reason `rise` and falls only for the reason `fall`. -/
def BitChange (rise fall : Prop) (a b : Bool) : Prop := (a = false → b = true → rise) ∧ (a = true → b = false → fall)

section BitChange

variable {rise fall : Prop} {a b : Bool}

theorem BitChange.same (h : b = a) : BitChange rise fall a b := by
  subst h
  exact ⟨fun h0 h1 => absurd (h0.symm.trans h1) Bool.false_ne_true,
    fun h1 h0 => absurd (h0.symm.trans h1) Bool.false_ne_true⟩

theorem BitChange.set (h : rise) : BitChange rise fall a true := ⟨fun _ _ => h, fun _ h0 => by cases h0⟩

theorem BitChange.clear (h : fall) : BitChange rise fall a false := ⟨fun _ h1 => (by cases h1), fun _ _ => h⟩

theorem BitChange.either (hr : rise) (hf : fall) : BitChange rise fall a b := ⟨fun _ _ => hr, fun _ _ => hf⟩

/-- A bit that is never set where it is 0 can only fall. -/
theorem BitChange.falls (hb : a = false → b = false) (hf : fall) : BitChange rise fall a b :=
  ⟨fun h0 h1 => absurd ((hb h0).symm.trans h1) Bool.false_ne_true, fun _ _ => hf⟩

/-- A bit that is never cleared where it is 1 can only rise. -/
theorem BitChange.rises (hb : a = true → b = true) (hr : rise) : BitChange rise fall a b :=
  ⟨fun _ _ => hr, fun h1 h0 => absurd (h0.symm.trans (hb h1)) Bool.false_ne_true⟩

end BitChange

/-- SHA_INIT and SHA_FINAL alone write SHA_ACTIVE and DIGEST_VALID (R24, R25). -/
theorem Completion.shaFlags {i : Instr} {s t : State} (h : Completion s i t) :
    (t.shaActive = s.shaActive ∧ t.digestValid = s.digestValid)
    ∨ (i = .shaInit ∧ t.shaActive = true ∧ t.digestValid = false)
    ∨ ∃ r, i = .shaFinal r ∧ t.shaActive = false ∧ t.digestValid = true := by
  cases h with
  | error | verifyError | block | power | verified => exact .inl ⟨rfl, rfl⟩
  | init => exact .inr (.inl ⟨rfl, rfl, rfl⟩)
  | final r => exact .inr (.inr ⟨r, rfl, rfl, rfl⟩)

/-- RSA_VERIFY alone writes VERIFY_OK (R28). -/
theorem Completion.verifyOk {i : Instr} {s t : State} (h : Completion s i t) :
    t.verifyOk = s.verifyOk ∨ i = .rsaVerify := by
  cases h with
  | error | init | block | final | power => exact .inl rfl
  | verifyError | verified => exact .inr rfl

/-- No completion writes an operand register, CTRL, WERR or CUR (R20, R32, R34, R75). -/
theorem Completion.operands {i : Instr} {s t : State} (h : Completion s i t) :
    t.msg = s.msg ∧ t.n = s.n ∧ t.e = s.e ∧ t.b = s.b ∧ t.ie = s.ie ∧ t.werr = s.werr ∧ t.cur = s.cur := by
  cases h <;> exact ⟨rfl, rfl, rfl, rfl, rfl, rfl, rfl⟩

/-- R30. -/
theorem StepEffect.busy {s t : State} (h : StepEffect s t) :
    BitChange (mayWrite (nextTurn s)) (nextTurn s = .engine ∨ nextTurn s = .reset) s.busy t.busy := by
  cases h with
  | quiet => exact .same rfl
  | completes _ _ hm _ _ hc =>
    obtain ⟨-, hbusy, -⟩ := hc.status
    exact hbusy ▸ .clear (.inl hm)
  | illegal hm => exact .clear (.inl hm)
  | writes _ _ _ reg v hm => exact .rises (fun hb => writeReg_busy_of_busy reg v hb) hm
  | resets hm => exact .clear (.inr hm)

/-- R31. -/
theorem StepEffect.done {s t : State} (h : StepEffect s t) :
    BitChange (nextTurn s = .engine ∧ s.busy = true) (mayWrite (nextTurn s) ∨ nextTurn s = .reset) s.done t.done := by
  cases h with
  | quiet => exact .same rfl
  | completes _ _ hm hb _ hc =>
    obtain ⟨hdone, -, -⟩ := hc.status
    rw [hdone]
    exact .set ⟨hm, hb⟩
  | illegal hm hb => exact .set ⟨hm, hb⟩
  | writes _ _ _ reg v hm => exact .falls (fun hd => writeReg_done_of_not_done reg v hd) (.inl hm)
  | resets hm => exact .clear (.inr hm)

/-- R32. -/
theorem StepEffect.werr {s t : State} (h : StepEffect s t) :
    BitChange (mayWrite (nextTurn s)) (mayWrite (nextTurn s) ∨ nextTurn s = .reset) s.werr t.werr := by
  cases h with
  | quiet | illegal => exact .same rfl
  | completes _ _ _ _ _ hc =>
    obtain ⟨-, -, -, -, -, hwerr, -⟩ := hc.operands
    exact .same hwerr
  | writes _ _ _ _ _ hm => exact .either hm (.inl hm)
  | resets hm => exact .clear (.inr hm)

/-- R24. -/
theorem StepEffect.shaActive {s t : State} (h : StepEffect s t) :
    BitChange (nextTurn s = .engine ∧ decode s.cur = .ok .shaInit)
      ((nextTurn s = .engine ∧ ∃ r, decode s.cur = .ok (.shaFinal r)) ∨ nextTurn s = .reset)
      s.shaActive t.shaActive := by
  cases h with
  | quiet | illegal => exact .same rfl
  | completes _ _ hm _ hi hc =>
    obtain ⟨ha, -⟩ | ⟨rfl, ha, -⟩ | ⟨r, rfl, ha, -⟩ := hc.shaFlags
    · exact .same ha
    · exact ha ▸ .set ⟨hm, hi⟩
    · exact ha ▸ .clear (.inl ⟨hm, r, hi⟩)
  | writes _ _ _ reg v =>
    obtain ⟨-, -, -, -, ha, -, -⟩ := writeReg_results reg v (s.outside _ _ _)
    exact .same ha
  | resets hm => exact .clear (.inr hm)

/-- R25. -/
theorem StepEffect.digestValid {s t : State} (h : StepEffect s t) :
    BitChange (nextTurn s = .engine ∧ ∃ r, decode s.cur = .ok (.shaFinal r))
      ((nextTurn s = .engine ∧ decode s.cur = .ok .shaInit) ∨ nextTurn s = .reset)
      s.digestValid t.digestValid := by
  cases h with
  | quiet | illegal => exact .same rfl
  | completes _ _ hm _ hi hc =>
    obtain ⟨-, hd⟩ | ⟨rfl, -, hd⟩ | ⟨r, rfl, -, hd⟩ := hc.shaFlags
    · exact .same hd
    · exact hd ▸ .clear (.inl ⟨hm, hi⟩)
    · exact hd ▸ .set ⟨hm, r, hi⟩
  | writes _ _ _ reg v =>
    obtain ⟨-, -, -, -, -, hd, -⟩ := writeReg_results reg v (s.outside _ _ _)
    exact .same hd
  | resets hm => exact .clear (.inr hm)

/-- R28. -/
theorem StepEffect.verifyOk {s t : State} (h : StepEffect s t) :
    BitChange (nextTurn s = .engine ∧ decode s.cur = .ok .rsaVerify)
      ((nextTurn s = .engine ∧ decode s.cur = .ok .rsaVerify) ∨ nextTurn s = .reset)
      s.verifyOk t.verifyOk := by
  cases h with
  | quiet | illegal => exact .same rfl
  | completes _ _ hm _ hi hc =>
    obtain hv | rfl := hc.verifyOk
    · exact .same hv
    · exact .either ⟨hm, hi⟩ (.inl ⟨hm, hi⟩)
  | writes _ _ _ reg v =>
    obtain ⟨-, -, -, hv, -, -, -⟩ := writeReg_results reg v (s.outside _ _ _)
    exact .same hv
  | resets hm => exact .clear (.inr hm)

/-- The obligation lists reset between the host's two ways of writing. -/
theorem host_or_reset_or_bus {m : Turn} (h : mayWrite m ∨ m = .reset) :
    m = .host ∨ m = .reset ∨ ∃ w addr v, m = .bus (.write w addr v) := by
  obtain (hm | hm) | hm := h
  · exact .inl hm
  · exact .inr (.inr hm)
  · exact .inr (.inl hm)

/-- Settles O57: each bit's rise and fall, from the effects of a step. -/
theorem statusBitsChangeOnlyAsListed : Obligations.StatusBitsChangeOnlyAsListed := by
  unfold Obligations.StatusBitsChangeOnlyAsListed
  intro s t h
  have h := step_effect h
  obtain ⟨busyRises, busyFalls⟩ := h.busy
  obtain ⟨doneRises, doneFalls⟩ := h.done
  obtain ⟨werrRises, werrFalls⟩ := h.werr
  obtain ⟨activeRises, activeFalls⟩ := h.shaActive
  obtain ⟨validRises, validFalls⟩ := h.digestValid
  obtain ⟨verifyRises, verifyFalls⟩ := h.verifyOk
  exact ⟨busyRises, busyFalls, doneRises, fun h1 h0 => host_or_reset_or_bus (doneFalls h1 h0), werrRises,
    fun h1 h0 => host_or_reset_or_bus (werrFalls h1 h0), activeRises, activeFalls, validRises, validFalls, verifyRises,
    verifyFalls⟩

/-- R20: the engine's move leaves its operands and CTRL. -/
theorem StepEffect.operands_of_engine {s t : State} (h : StepEffect s t) (hm : nextTurn s = .engine) :
    t.msg = s.msg ∧ t.n = s.n ∧ t.e = s.e ∧ t.b = s.b ∧ t.ie = s.ie := by
  cases h with
  | quiet | illegal => exact ⟨rfl, rfl, rfl, rfl, rfl⟩
  | completes _ _ _ _ _ hc =>
    obtain ⟨hmsg, hn, he, hb, hie, -, -⟩ := hc.operands
    exact ⟨hmsg, hn, he, hb, hie⟩
  | writes _ _ _ _ _ hw => simp [mayWrite, hm] at hw
  | resets hr => simp [hm] at hr

/-- R61, R72: no step but a reset changes the operands or the command of a busy engine. -/
theorem StepEffect.operands_of_busy {s t : State} (h : StepEffect s t) (hb : s.busy = true) (hm : nextTurn s ≠ .reset) :
    t.msg = s.msg ∧ t.n = s.n ∧ t.e = s.e ∧ t.b = s.b ∧ t.cur = s.cur := by
  cases h with
  | quiet | illegal => exact ⟨rfl, rfl, rfl, rfl, rfl⟩
  | completes _ _ _ _ _ hc =>
    obtain ⟨hmsg, hn, he, hb, -, -, hcur⟩ := hc.operands
    exact ⟨hmsg, hn, he, hb, hcur⟩
  | writes host turns draws reg v => exact writeReg_operands_of_busy reg v (s := s.outside host turns draws) hb
  | resets hr => exact absurd hr hm

/-- Settles O58: the two frames of a step, one for each clause. -/
theorem operandsAreStable : Obligations.OperandsAreStable := by
  unfold Obligations.OperandsAreStable
  intro s t h
  exact ⟨(step_effect h).operands_of_engine, (step_effect h).operands_of_busy⟩

end Sys2Proof.Machine
end

section
/-!
The register window (R39, R51, R55, R63) and the STATUS word (R40).
-/
namespace Sys2Proof.Machine

/-! ### Which offset reaches which register -/

theorem windowReg_offsetOf (reg : WindowReg) : windowReg (offsetOf reg) = some reg := by
  cases reg with
  | msg i => exact windowReg_msg i
  | h i => exact windowReg_h i
  | n j => exact windowReg_n j
  | e j => exact windowReg_e j
  | b j => exact windowReg_b j
  | r j => exact windowReg_r j
  | _ => rfl

/-- An aligned offset that reaches a register is its offset: seven single words, then six ranges of words (R51). -/
theorem offset_eq_of_windowReg {off : Nat} {reg : WindowReg} (hal : off % 4 = 0) (hr : windowReg off = some reg) :
    off = offsetOf reg := by
  unfold windowReg at hr
  iterate 7
    obtain ⟨hoff, hreg⟩ | ⟨-, hr⟩ := ite_eq_iff.1 hr
    · cases hreg
      exact hoff
  iterate 6
    obtain ⟨hoff, hreg⟩ | ⟨-, hr⟩ := dite_eq_iff.1 hr
    · cases hreg
      simp only [offsetOf]
      omega
  cases hr

theorem offsetOf_aligned (reg : WindowReg) : offsetOf reg % 4 = 0 := by
  cases reg <;> simp only [offsetOf] <;> omega

/-- Settles O40: `offsetOf` and `windowReg` invert each other on aligned offsets; the mapped words are counted. -/
theorem windowMapsEachRegisterOnce : Obligations.WindowMapsEachRegisterOnce := by
  unfold Obligations.WindowMapsEachRegisterOnce
  refine ⟨fun off reg hal => ⟨offset_eq_of_windowReg hal, ?_⟩, ?_⟩
  · rintro rfl
    exact windowReg_offsetOf reg
  · decide +kernel

/-! ### Reads -/

theorem busRead_offsetOf (reg : WindowReg) (s : State) : busRead .w32 (offsetOf reg) s = readReg reg s :=
  busRead_of_windowReg s (offsetOf_aligned reg) (windowReg_offsetOf reg)

/-- What is answered only while the engine is busy is not answered by an idle one (R55). -/
theorem ite_busy_of_idle {s : State} (hb : s.busy = false) (x y : Result) : (if s.busy then x else y) = y :=
  if_neg (by simp [hb])

theorem ctrlWord_eq (s : State) : ctrlWord s = if s.ie then 1#32 else 0#32 := by
  unfold ctrlWord
  cases s.ie <;> rfl

/-- A read of LEN, H or R of a busy engine draws the next unspecified value (R63). -/
theorem readReg_any {reg : WindowReg} {s : State} (hb : s.busy = true)
    (hreg : reg = .lenLo ∨ reg = .lenHi ∨ (∃ i, reg = .h i) ∨ ∃ j, reg = .r j) :
    readReg reg s = .next (s.countDraw.setAcc (Config.anyRead s.draws)) := by
  obtain rfl | rfl | ⟨i, rfl⟩ | ⟨j, rfl⟩ := hreg <;> exact if_pos hb

/-- Settles O43: each listed offset is the offset of its register, and `readReg` says what is read. -/
theorem registerReadValues : Obligations.RegisterReadValues := by
  unfold Obligations.RegisterReadValues
  intro s
  refine ⟨busRead_offsetOf .id s, busRead_offsetOf .cfg s, ?_, busRead_offsetOf .status s, busRead_offsetOf .cmd s,
    fun hb => ?_, fun hb => ?_, fun i => busRead_offsetOf (.msg i) s, fun i hb => ?_,
    fun j => busRead_offsetOf (.n j) s, fun j => busRead_offsetOf (.e j) s, fun j => busRead_offsetOf (.b j) s,
    fun j hb => ?_, ?_⟩
  · rw [← ctrlWord_eq]
    exact busRead_offsetOf .ctrl s
  · exact (busRead_offsetOf .lenLo s).trans (ite_busy_of_idle hb _ _)
  · exact (busRead_offsetOf .lenHi s).trans (ite_busy_of_idle hb _ _)
  · exact (busRead_offsetOf (.h i) s).trans (ite_busy_of_idle hb _ _)
  · exact (busRead_offsetOf (.r j) s).trans (ite_busy_of_idle hb _ _)
  · rintro off hb (rfl | rfl | ⟨i, rfl⟩ | ⟨j, rfl⟩)
    · exact (busRead_offsetOf .lenLo s).trans (readReg_any hb (.inl rfl))
    · exact (busRead_offsetOf .lenHi s).trans (readReg_any hb (.inr (.inl rfl)))
    · exact (busRead_offsetOf (.h i) s).trans (readReg_any hb (.inr (.inr (.inl ⟨i, rfl⟩))))
    · exact (busRead_offsetOf (.r j) s).trans (readReg_any hb (.inr (.inr (.inr ⟨j, rfl⟩))))

/-- Settles O44: a read gives the value the word holds, which is the unspecified one while the word is unwritten. -/
theorem readingUnwrittenWordIsUnspecified : Obligations.ReadingUnwrittenWordIsUnspecified := by
  unfold Obligations.ReadingUnwrittenWordIsUnspecified
  intro s hs
  obtain ⟨-, -, -, -, -, -, -, readMsg, readH, readN, readE, readB, readR, -⟩ := registerReadValues s
  refine ⟨fun i hw => ?_, fun i hb hw => ?_, fun j hw => ?_, fun j hw => ?_, fun j hw => ?_, fun j hb hw => ?_⟩
  · rw [readMsg, value_of_unwritten hs.msg hw]
  · rw [readH i hb, value_of_unwritten hs.h hw]
  · rw [readN, value_of_unwritten hs.n hw]
  · rw [readE, value_of_unwritten hs.e hw]
  · rw [readB, value_of_unwritten hs.b hw]
  · rw [readR j hb, value_of_unwritten hs.r hw]

/-! ### STATUS -/

/-- Appended bit vectors as a number: the upper one counts the multiples of the lower one's range. -/
theorem toNat_append_eq_add {m n : Nat} (x : BitVec m) (y : BitVec n) :
    (x ++ y).toNat = x.toNat * 2 ^ n + y.toNat := by
  rw [BitVec.toNat_append, ← Nat.shiftLeft_add_eq_or_of_lt y.isLt, Nat.shiftLeft_eq]

/-- Settles O47: each field weighs what the fields below it leave. -/
theorem statusWordLayout : Obligations.StatusWordLayout := by
  unfold Obligations.StatusWordLayout
  intro s
  simp only [statusWord, toNat_append_eq_add, BitVec.toNat_ofBool, BitVec.toNat_ofNat]
  omega

end Sys2Proof.Machine
end

section
/-!
What the commands compute with (R38, R116, R117, R146 to R148): the values their words hold, written or not.
-/
namespace Sys2Proof.Machine

/-! ### The bytes SHA_FINAL takes -/

/-- R64: byte k of message words is byte k mod 4 of word k / 4. -/
theorem bytesOfWords_getElem? (ws : List Word) (k : Nat) :
    (bytesOfWords ws)[k]? = ws[k / 4]?.map (byteOf (k % 4)) := by
  induction ws generalizing k with
  | nil => rfl
  | cons w ws ih =>
    match k with
    | 0 | 1 | 2 | 3 => rfl
    | k + 4 =>
      have later : (bytesOfWords (w :: ws))[k + 4]? = (bytesOfWords ws)[k]? := rfl
      rw [later, ih, Nat.add_div_right k (by decide), Nat.add_mod_right, List.getElem?_cons_succ]

/-- The words SHA_FINAL r consumes hold the first r bytes of MSG (R117). -/
theorem finalBytes_eq {msg : Vector DataWord 16} {r : Nat} {p : List Byte} (hr : r ≤ 63) (hlen : p.length = r)
    (hp : ∀ k, k < r → p[k]? = some (byteOf (k % 4) ((valuesOf msg.toList).getD (k / 4) 0#32))) :
    (bytesOfWords (valuesOf (finalWords msg r))).take r = p := by
  apply List.ext_getElem?
  intro k
  by_cases hk : k < r
  · have hword : k / 4 < (valuesOf msg.toList).length := by rw [valuesOf_length, Vector.length_toList]; omega
    have consumed : (valuesOf (finalWords msg r))[k / 4]? = (valuesOf msg.toList)[k / 4]? := by
      rw [finalWords, valuesOf_getElem?, valuesOf_getElem?, List.getElem?_take_of_lt (by omega)]
    rw [hp k hk, List.getElem?_take_of_lt hk, bytesOfWords_getElem?, consumed, List.getD_eq_getElem?_getD,
      List.getElem?_eq_getElem hword]
    rfl
  · rw [List.getElem?_take_eq_none (by omega), List.getElem?_eq_none (by omega)]

/-! ### Completion, from the operands as numbers and lists -/

theorem exec_shaFinal_of_bytes {s : State} {r : Nat} {p : List Byte} (hr : r ≤ 63) (ha : s.shaActive = true)
    (hlen : p.length = r)
    (hp : ∀ k, k < r → p[k]? = some (byteOf (k % 4) ((valuesOf s.msg.toList).getD (k / 4) 0#32))) :
    exec (.shaFinal r) s = .next (((s.setHash
      (hashRegister ((pad p (s.len + BitVec.ofNat 64 (8 * r))).foldl compress (varsOfWords (valuesOf s.h.toList))))
      (s.len + BitVec.ofNat 64 (8 * r))).setShaFlags false true).finish .ok) := by
  rw [exec_shaFinal, execShaFinal_of_active hr ha, finalUpdate, finalBytes_eq hr hlen hp, absorb, State.hashVars]

theorem exec_rsaModexp_of_modulus {s : State} (hn : s.nInt ≠ 0) :
    exec .rsaModexp s = .next ((s.setR (toReg (s.bInt ^ s.eInt % s.nInt))).finish .ok) := by
  rw [exec_rsaModexp, execRsaModexp_of_modulus hn, modExp_eq_pow]

theorem exec_rsaModexp_of_zero {s : State} (hn : s.nInt = 0) : exec .rsaModexp s = .next (s.finish .modZero) := by
  rw [exec_rsaModexp, execRsaModexp, if_pos hn, raiseError_eq]

theorem exec_rsaSign_of_key {s : State} (hd : s.digestValid = true)
    (hk : s.nInt % 2 = 1 ∧ 1 < s.eInt ∧ s.eInt < s.nInt) :
    exec .rsaSign s = .next ((s.setR (toReg ((s.digest % s.nInt) ^ s.eInt % s.nInt))).finish .ok) := by
  rw [exec_rsaSign, execRsaSign_of_key hd hk, modExp_eq_pow, reduceDigest_eq_mod]

theorem exec_rsaVerify_of_key {s : State} (hd : s.digestValid = true)
    (hk : s.nInt % 2 = 1 ∧ 1 < s.eInt ∧ s.eInt < s.nInt) (hb : s.bInt < s.nInt) :
    exec .rsaVerify s = .next (((s.setR (toReg (s.bInt ^ s.eInt % s.nInt))).setVerifyOk
      (decide (s.digest % s.nInt = s.bInt ^ s.eInt % s.nInt))).finish .ok) := by
  rw [exec_rsaVerify, execRsaVerify_of_key hd hk hb, verifyUpdate, modExp_eq_pow]

/-- Settles O37: `heldWords` are the values of the words, and each command computes with these. -/
theorem commandsComputeWithUnspecifiedWords : Obligations.CommandsComputeWithUnspecifiedWords := by
  unfold Obligations.CommandsComputeWithUnspecifiedWords
  intro s hs
  rw [← hs.msg, ← hs.h, ← hs.n, ← hs.e, ← hs.b]
  refine ⟨fun ha hl => ?_, fun r p hr ha hlen hp => ?_, ?_⟩
  · rw [exec_shaBlock, execShaBlock_of_active ha hl]
    rfl
  · rw [exec_shaFinal_of_bytes hr ha hlen hp]
    rfl
  · rintro _ _ _ _ rfl rfl rfl rfl
    exact ⟨exec_rsaModexp_of_modulus, exec_rsaModexp_of_zero, fun hd ho he hn => exec_rsaSign_of_key hd ⟨ho, he, hn⟩,
      fun hd ho he hn hb => exec_rsaVerify_of_key hd ⟨ho, he, hn⟩ hb⟩

end Sys2Proof.Machine
end

section
/-!
Independence of unspecified values (R38, R207, I2): two states that differ at most in unwritten words stay so when a command
completes whose consumed words are written.
-/
namespace Sys2Proof.Machine

/-! ### Updates keep the agreement -/

section updates

variable {s s' : State} (h : AgreeWhereWritten s s')

include h

theorem AgreeWhereWritten.finish (code : ErrCode) : AgreeWhereWritten (s.finish code) (s'.finish code) :=
  { h with others := by rw [h.others]; rfl }

theorem AgreeWhereWritten.setShaFlags (active valid : Bool) :
    AgreeWhereWritten (s.setShaFlags active valid) (s'.setShaFlags active valid) :=
  { h with others := by rw [h.others]; rfl }

theorem AgreeWhereWritten.setVerifyOk (v : Bool) : AgreeWhereWritten (s.setVerifyOk v) (s'.setVerifyOk v) :=
  { h with others := by rw [h.others]; rfl }

theorem AgreeWhereWritten.setHash (hash : Vector DataWord 8) (len : BitVec 64) :
    AgreeWhereWritten (s.setHash hash len) (s'.setHash hash len) :=
  { h with h := agreeWhereWritten_self _, others := by rw [h.others]; rfl }

theorem AgreeWhereWritten.setR (r : Vector DataWord 128) : AgreeWhereWritten (s.setR r) (s'.setR r) :=
  { h with r := agreeWhereWritten_self _, others := by rw [h.others]; rfl }

/-! ### Written operands have the same value in both states -/

theorem AgreeWhereWritten.shaActive_eq : s'.shaActive = s.shaActive := by rw [h.others]

theorem AgreeWhereWritten.digestValid_eq : s'.digestValid = s.digestValid := by rw [h.others]

theorem AgreeWhereWritten.len_eq : s'.len = s.len := by rw [h.others]

theorem AgreeWhereWritten.nInt_eq (hw : allWritten s.n.toList = true) : s'.nInt = s.nInt := by
  rw [State.nInt, valuesOf_eq_of_agree h.n hw, State.nInt]

theorem AgreeWhereWritten.eInt_eq (hw : allWritten s.e.toList = true) : s'.eInt = s.eInt := by
  rw [State.eInt, valuesOf_eq_of_agree h.e hw, State.eInt]

theorem AgreeWhereWritten.bInt_eq (hw : allWritten s.b.toList = true) : s'.bInt = s.bInt := by
  rw [State.bInt, valuesOf_eq_of_agree h.b hw, State.bInt]

theorem AgreeWhereWritten.digest_eq (hw : allWritten s.h.toList = true) : s'.digest = s.digest := by
  rw [State.digest, valuesOf_eq_of_agree h.h hw, State.digest]

theorem AgreeWhereWritten.hashVars_eq (hw : allWritten s.h.toList = true) : s'.hashVars = s.hashVars := by
  rw [State.hashVars, valuesOf_eq_of_agree h.h hw, State.hashVars]

end updates

/-- Registers that agree where they are written do so in their first `k` words. -/
theorem agreeWhereWritten_take {ws vs : List DataWord} (h : agreeWhereWritten ws vs = true) (k : Nat) :
    agreeWhereWritten (ws.take k) (vs.take k) = true := by
  rw [agreeWhereWritten, Bool.and_eq_true, beq_iff_eq] at h ⊢
  obtain ⟨hflags, hvalues⟩ := h
  refine ⟨by rw [List.map_take, List.map_take, hflags], ?_⟩
  rw [List.zip_eq_zipWith, ← List.take_zipWith, ← List.zip_eq_zipWith]
  exact List.all_eq_true.2 fun x hx => List.all_eq_true.1 hvalues x (List.mem_of_mem_take hx)

/-- The updates of SHA_FINAL are the same where H and the words it takes are written (R117). -/
theorem AgreeWhereWritten.finalUpdate {s s' : State} (h : AgreeWhereWritten s s') {r : Nat}
    (hh : allWritten s.h.toList = true) (hm : allWritten (finalWords s.msg r) = true) :
    AgreeWhereWritten (finalUpdate r s) (finalUpdate r s') := by
  have hbytes : valuesOf (finalWords s'.msg r) = valuesOf (finalWords s.msg r) :=
    valuesOf_eq_of_agree (agreeWhereWritten_take h.msg _) hm
  rw [Machine.finalUpdate, Machine.finalUpdate, hbytes, h.hashVars_eq hh, h.len_eq]
  exact (h.setHash _ _).setShaFlags _ _

/-! ### The commands, each with its operands written -/

/-- Both answers are next states, and these differ at most in the values of unwritten words. -/
def completionsAgree (x x' : Result) : Prop := ∃ t t', x = .next t ∧ x' = .next t' ∧ AgreeWhereWritten t t'

section commands

variable {s s' : State}

theorem execShaBlock_agree (hs : EngineInv s) (hm : allWritten s.msg.toList = true) (h : AgreeWhereWritten s s') :
    completionsAgree (execShaBlock s) (execShaBlock s') := by
  refine ⟨_, _, rfl, rfl, ?_⟩
  rw [h.shaActive_eq, h.len_eq, valuesOf_eq_of_agree h.msg hm]
  split
  · exact h.finish _
  · rename_i ha
    rw [h.hashVars_eq (hs.hashWritten (.inl (by simpa using ha)))]
    split
    · exact h.finish _
    · exact (h.setHash _ _).finish _

theorem execShaFinal_agree {r : Nat} (hr : r ≤ 63) (hs : EngineInv s) (hm : allWritten (finalWords s.msg r) = true)
    (h : AgreeWhereWritten s s') : completionsAgree (execShaFinal r s) (execShaFinal r s') := by
  refine ⟨_, _, execShaFinal_eq hr s, execShaFinal_eq hr s', ?_⟩
  rw [h.shaActive_eq]
  split
  · exact h.finish _
  · rename_i ha
    exact (h.finalUpdate (hs.hashWritten (.inl (by simpa using ha))) hm).finish _

theorem execRsaModexp_agree (hn : allWritten s.n.toList = true) (he : allWritten s.e.toList = true)
    (hb : allWritten s.b.toList = true) (h : AgreeWhereWritten s s') :
    completionsAgree (execRsaModexp s) (execRsaModexp s') := by
  refine ⟨_, _, rfl, rfl, ?_⟩
  rw [h.nInt_eq hn, h.eInt_eq he, h.bInt_eq hb]
  split
  · exact h.finish _
  · exact (h.setR _).finish _

theorem execRsaSign_agree (hs : EngineInv s) (hn : allWritten s.n.toList = true) (he : allWritten s.e.toList = true)
    (h : AgreeWhereWritten s s') : completionsAgree (execRsaSign s) (execRsaSign s') := by
  refine ⟨_, _, rfl, rfl, ?_⟩
  rw [h.digestValid_eq, h.nInt_eq hn, h.eInt_eq he]
  split
  · exact h.finish _
  · rename_i hd
    rw [h.digest_eq (hs.hashWritten (.inr (by simpa using hd)))]
    split
    · exact h.finish _
    · exact (h.setR _).finish _

theorem execRsaVerify_agree (hs : EngineInv s) (hn : allWritten s.n.toList = true) (he : allWritten s.e.toList = true)
    (hb : allWritten s.b.toList = true) (h : AgreeWhereWritten s s') :
    completionsAgree (execRsaVerify s) (execRsaVerify s') := by
  refine ⟨_, _, rfl, rfl, ?_⟩
  rw [verifyUpdate, verifyUpdate, h.digestValid_eq, h.nInt_eq hn, h.eInt_eq he, h.bInt_eq hb]
  split
  · exact (h.setVerifyOk _).finish _
  · rename_i hd
    rw [h.digest_eq (hs.hashWritten (.inr (by simpa using hd)))]
    split
    · exact (h.setVerifyOk _).finish _
    · split
      · exact (h.setVerifyOk _).finish _
      · exact ((h.setR _).setVerifyOk _).finish _

end commands

/-- Settles O38: command by command; the invariant gives a written H wherever a command reads it. -/
theorem writtenOperandsDetermineOutcome : Obligations.WrittenOperandsDetermineOutcome := by
  unfold Obligations.WrittenOperandsDetermineOutcome
  intro i s s' hs hi hw h
  cases i with
  | shaInit => exact ⟨_, _, execShaInit_eq s, execShaInit_eq s', ((h.setHash _ _).setShaFlags _ _).finish _⟩
  | shaBlock => exact execShaBlock_agree hs hw h
  | shaFinal r => exact execShaFinal_agree (by simpa [Instr.wellFormed] using hi) hs hw h
  | rsaModexp =>
    simp only [operandsWritten, Bool.and_eq_true] at hw
    obtain ⟨⟨hn, he⟩, hb⟩ := hw
    exact execRsaModexp_agree hn he hb h
  | rsaSign =>
    simp only [operandsWritten, Bool.and_eq_true] at hw
    obtain ⟨hn, he⟩ := hw
    exact execRsaSign_agree hs hn he h
  | rsaVerify =>
    simp only [operandsWritten, Bool.and_eq_true] at hw
    obtain ⟨⟨hn, he⟩, hb⟩ := hw
    exact execRsaVerify_agree hs hn he hb h

end Sys2Proof.Machine
end

section
/-!
The bus (R50 to R62): where an access goes, which accesses are bus errors, and what a read and a write leave.
-/
namespace Sys2Proof.Machine

/-! ### Addresses and bus errors -/

theorem atAddress_base_add (off : Nat) (k : Nat → Result) : atAddress (Config.base + off) k = k off := by
  rw [atAddress, if_neg (Nat.not_lt.2 (Nat.le_add_right _ _)), Nat.add_sub_cancel_left]

theorem base_mod_windowSize : Config.base % 0x2000 = 0 := by
  unfold Config.base
  exact Nat.mul_mod_left _ _

/-- Settles O42: an address from BASE on is taken as its distance from BASE, a multiple of 0x2000 by definition. -/
theorem busAddressIsBasePlusOffset : Obligations.BusAddressIsBasePlusOffset := by
  unfold Obligations.BusAddressIsBasePlusOffset
  refine ⟨base_mod_windowSize, fun w off v s => ⟨?_, ?_⟩⟩
  · rw [busAccess, atAddress_base_add]
  · rw [busAccess, atAddress_base_add]

section busErrors

variable {w : Width} {off : Nat} (k : WindowReg → Result) (hlt : off < 0x2000)
include hlt

/-- R52. -/
theorem onRegister_of_width (hw : w ≠ .w32) : onRegister w off k = .fault (.busError .width off) := by
  rw [onRegister, if_neg (by omega), if_pos hw]

/-- R52. -/
theorem onRegister_of_misaligned (hal : off % 4 ≠ 0) : onRegister .w32 off k = .fault (.busError .misaligned off) := by
  rw [onRegister, if_neg (by omega), if_neg (by simp), if_pos hal]

/-- R53. -/
theorem onRegister_of_unmapped (hal : off % 4 = 0) (hr : windowReg off = none) :
    onRegister .w32 off k = .fault (.busError .unmapped off) := by
  rw [onRegister, if_neg (by omega), if_neg (by simp), if_neg (by omega), hr]

end busErrors

/-- R51: no register has an offset in the gaps of the window. -/
theorem windowReg_of_gap {off : Nat} (hal : off % 4 = 0)
    (hgap : (0x001C ≤ off ∧ off ≤ 0x003C) ∨ (0x00A0 ≤ off ∧ off ≤ 0x0FFC) ∨ (0x1800 ≤ off ∧ off ≤ 0x1FFC)) :
    windowReg off = none := by
  rw [Option.eq_none_iff_forall_ne_some]
  intro reg hr
  have hoff := offset_eq_of_windowReg hal hr
  cases reg <;> simp only [offsetOf] at hoff <;> omega

/-- Settles O41: one cause after the other, in the order `onRegister` checks them; reads and writes alike go through it. -/
theorem badAccessIsBusError : Obligations.BadAccessIsBusError := by
  unfold Obligations.BadAccessIsBusError
  intro w off v s hlt
  refine ⟨fun hw => ?_, ?_, ?_⟩
  · exact ⟨onRegister_of_width _ hlt hw, onRegister_of_width _ hlt hw⟩
  · rintro rfl hal
    exact ⟨onRegister_of_misaligned _ hlt hal, onRegister_of_misaligned _ hlt hal⟩
  · rintro rfl hal hgap
    have hr := windowReg_of_gap hal hgap
    exact ⟨onRegister_of_unmapped _ hlt hal hr, onRegister_of_unmapped _ hlt hal hr⟩

/-! ### Writes -/

theorem busWrite_offsetOf (reg : WindowReg) (v : Word) (s : State) :
    busWrite .w32 (offsetOf reg) v s = .next (writeReg reg v s) :=
  busWrite_of_windowReg v s (offsetOf_aligned reg) (windowReg_offsetOf reg)

/-- A STATUS bit that a write clears (R31, R32). -/
theorem and_not_eq_ite (a b : Bool) : (a && !b) = if b then false else a := by
  cases b <;> simp

/-- Settles O46: each offset is the offset of its register, and `writeReg` says what is written. -/
theorem registerWriteEffects : Obligations.RegisterWriteEffects := by
  unfold Obligations.RegisterWriteEffects
  intro s v
  refine ⟨busWrite_offsetOf .ctrl v s, ?_, busWrite_offsetOf .cmd v s, fun i => busWrite_offsetOf (.msg i) v s,
    fun j => busWrite_offsetOf (.n j) v s, fun j => busWrite_offsetOf (.e j) v s, fun j => busWrite_offsetOf (.b j) v s, ?_⟩
  · rw [← and_not_eq_ite, ← and_not_eq_ite]
    exact busWrite_offsetOf .status v s
  · rintro off (rfl | rfl | rfl | rfl | ⟨i, rfl⟩ | ⟨j, rfl⟩)
    · exact busWrite_offsetOf .id v s
    · exact busWrite_offsetOf .cfg v s
    · exact busWrite_offsetOf .lenLo v s
    · exact busWrite_offsetOf .lenHi v s
    · exact busWrite_offsetOf (.h i) v s
    · exact busWrite_offsetOf (.r j) v s

/-- R57: a word that is set is the new one, and the others stay. -/
theorem set_word_getElem {n : Nat} (ws : Vector DataWord n) (i : Fin n) (d : DataWord) :
    (ws.set i d)[i] = d ∧ ∀ k : Fin n, k ≠ i → (ws.set i d)[k] = ws[k] :=
  ⟨Vector.getElem_set_self _, fun k hk => Vector.getElem_set_ne _ k.isLt (fun h => hk (Fin.ext h.symm))⟩

/-- Settles O39: the write sets one word of its register, as `registerWriteEffects` says of an idle engine. -/
theorem acceptedWriteMakesWordWritten : Obligations.AcceptedWriteMakesWordWritten := by
  unfold Obligations.AcceptedWriteMakesWordWritten
  intro s v hb
  obtain ⟨-, -, -, writeMsg, writeN, writeE, writeB, -⟩ := registerWriteEffects s v
  simp only [hb, Bool.false_eq_true, if_false] at writeMsg writeN writeE writeB
  exact ⟨fun i => ⟨_, writeMsg i, set_word_getElem s.msg i _⟩, fun j => ⟨_, writeN j, set_word_getElem s.n j _⟩,
    fun j => ⟨_, writeE j, set_word_getElem s.e j _⟩, fun j => ⟨_, writeB j, set_word_getElem s.b j _⟩⟩

/-! ### Reads -/

/-- R55: what an idle engine returns does not depend on what the host read before. -/
theorem readReg_again_of_idle {reg : WindowReg} {s t : State} (hb : s.busy = false) (h : readReg reg s = .next t) :
    readReg reg t = .next t := by
  cases reg with
  | lenLo | lenHi | h | r =>
    rw [readReg, ite_busy_of_idle hb] at h
    obtain rfl := next_inj h
    exact ite_busy_of_idle hb _ _
  | _ =>
    obtain rfl := next_inj h
    rfl

/-- R55, R63: a register that is never ANY returns the same value again, idle and busy. -/
theorem readReg_again_of_offset {reg : WindowReg} {s t : State}
    (hoff : offsetOf reg ≠ 0x0014 ∧ offsetOf reg ≠ 0x0018 ∧ (∀ i : Fin 8, offsetOf reg ≠ 0x0080 + 4 * i.val)
      ∧ ∀ j : Fin 128, offsetOf reg ≠ 0x1600 + 4 * j.val)
    (h : readReg reg s = .next t) : readReg reg t = .next t := by
  obtain ⟨hlo, hhi, hh, hr⟩ := hoff
  cases reg with
  | lenLo => exact absurd rfl hlo
  | lenHi => exact absurd rfl hhi
  | h i => exact absurd rfl (hh i)
  | r j => exact absurd rfl (hr j)
  | _ =>
    obtain rfl := next_inj h
    rfl

/-- Settles O45: a read is a read of a register, which changes what `busRead_next` says and can be made again. -/
theorem readsHaveNoSideEffect : Obligations.ReadsHaveNoSideEffect := by
  unfold Obligations.ReadsHaveNoSideEffect
  intro w off s t h
  refine ⟨?_, fun hsame => ?_⟩
  · obtain ⟨v, rfl | rfl⟩ := busRead_next h <;> rfl
  · obtain ⟨-, rfl, hal, reg, hr, hread⟩ := onRegister_eq_next h
    obtain rfl := offset_eq_of_windowReg hal hr
    rw [busRead_offsetOf]
    obtain hb | hoff := hsame
    · exact readReg_again_of_idle hb hread
    · exact readReg_again_of_offset hoff hread

end Sys2Proof.Machine
end

section
/-!
Which steps change the results of commands (R59).
-/
namespace Sys2Proof.Machine

/-- Settles O56: of the effects of a step, a quiet move and a write leave all of these as they are. -/
theorem onlyCompletionOrResetChangesResults : Obligations.OnlyCompletionOrResetChangesResults := by
  unfold Obligations.OnlyCompletionOrResetChangesResults
  intro s t h hchange
  cases step_effect h with
  | quiet => exact absurd ⟨rfl, rfl, rfl, rfl, rfl, rfl, rfl⟩ hchange
  | completes _ _ hm hb => exact .inl ⟨hm, hb⟩
  | illegal hm hb => exact .inl ⟨hm, hb⟩
  | writes host turns draws reg v => exact absurd (writeReg_results reg v (s.outside host turns draws)) hchange
  | resets hm => exact .inr hm

end Sys2Proof.Machine
end

section
/-!
The digest as an integer (R12, R66, R118, R144): the same number summed over the words of H and over their bytes.
-/
namespace Sys2Proof.Machine

/-- R66: the first word weighs most. -/
theorem digestInt_eq_wordSum (ws : List Word) :
    digestInt ws = ∑ i ∈ Finset.range ws.length, (ws.getD i 0#32).toNat * 2 ^ (32 * (ws.length - 1 - i)) := by
  rw [digestInt, intOf_eq_sum, List.length_reverse, ← Finset.sum_range_reflect]
  refine Finset.sum_congr rfl fun i hi => ?_
  have hi := Finset.mem_range.1 hi
  rw [List.getD_reverse _ (by omega), show ws.length - 1 - (ws.length - 1 - i) = i by omega]

theorem digestInt_lt (ws : List Word) : digestInt ws < 2 ^ (32 * ws.length) := by
  rw [digestInt, ← List.length_reverse]
  exact intOf_lt ws.reverse

theorem digestInt_cons (w : Word) (ws : List Word) :
    digestInt (w :: ws) = digestInt ws + w.toNat * 2 ^ (32 * ws.length) := by
  simp only [digestInt_eq_wordSum, List.length_cons, Finset.sum_range_succ', List.getD_cons_succ, List.getD_cons_zero,
    Nat.add_sub_cancel, Nat.sub_zero, Nat.sub_add_eq, Nat.sub_right_comm]

/-- R12: byte 0 of a word is its most significant one. -/
theorem toNat_eq_sum_bytes (w : Word) :
    w.toNat = ∑ j ∈ Finset.range 4, (byteOf j w).toNat * 2 ^ (8 * (3 - j)) := by
  have hw := w.isLt
  simp only [Finset.sum_range_succ, Finset.sum_range_zero, byteOf, BitVec.extractLsb'_toNat, Nat.shiftRight_eq_div_pow]
  omega

theorem bytesOfWords_length (ws : List Word) : (bytesOfWords ws).length = 4 * ws.length := by
  simp [bytesOfWords, Nat.mul_comm]

/-- R118: the digest integer is its bytes read big-endian. -/
theorem digestInt_eq_byteSum (ws : List Word) :
    digestInt ws
      = ∑ k ∈ Finset.range (4 * ws.length), ((bytesOfWords ws).getD k 0#8).toNat * 2 ^ (8 * (4 * ws.length - 1 - k)) := by
  induction ws with
  | nil => rfl
  | cons w ws ih =>
    have firstWord (j : Nat) (hj : j < 4) : (bytesOfWords (w :: ws)).getD j 0#8 = byteOf j w := by
      match j with
      | 0 | 1 | 2 | 3 => rfl
    have laterWords (k : Nat) : (bytesOfWords (w :: ws)).getD (4 + k) 0#8 = (bytesOfWords ws).getD k 0#8 := by
      rw [Nat.add_comm]
      rfl
    rw [digestInt_cons, ih, toNat_eq_sum_bytes, Finset.sum_mul, List.length_cons, Nat.mul_succ, Nat.add_comm (4 * _) 4,
      Finset.sum_range_add, Nat.add_comm]
    congr 1
    · refine Finset.sum_congr rfl fun j hj => ?_
      have hj := Finset.mem_range.1 hj
      rw [firstWord j hj, Nat.mul_assoc, ← pow_add]
      congr 2
      omega
    · refine Finset.sum_congr rfl fun k _ => ?_
      rw [laterWords]
      congr 3
      omega

/-- Settles O23: the sums over words and over bytes, and the place of each byte, for eight words. -/
theorem digestIntegerIsBigEndian : Obligations.DigestIntegerIsBigEndian := by
  unfold Obligations.DigestIntegerIsBigEndian
  intro h hlen
  refine ⟨?_, ?_, fun k hk => ?_, ?_⟩
  · rw [digestInt_eq_wordSum, hlen]
  · have hlt := digestInt_lt h
    rwa [hlen] at hlt
  · rw [bytesOfWords_getElem?, List.getD_eq_getElem?_getD, List.getElem?_eq_getElem (by omega)]
    rfl
  · rw [digestInt_eq_byteSum, hlen]

end Sys2Proof.Machine
end

section
/-!
Command words (R80 to R86, R92): the fields of a word, what the decoder accepts, the encoder and the opcode table. A word is
its three fields, so every statement about words is one about OP, NB and RSV.
-/
namespace Sys2Proof

/-! ### The fields of a word (R81) -/

section fields

variable (rsv : BitVec 18) (nb : BitVec 6) (op : BitVec 8) (v w : Word)

@[simp] theorem opField_append : opField (rsv ++ nb ++ op) = op := BitVec.extractLsb'_append_eq_right

@[simp] theorem nbField_append : nbField (rsv ++ nb ++ op) = nb := by
  rw [nbField, BitVec.extractLsb'_append_eq_of_le (Nat.le_refl 8)]
  exact BitVec.extractLsb'_append_eq_right

@[simp] theorem rsvField_append : rsvField (rsv ++ nb ++ op) = rsv := by
  rw [rsvField, BitVec.extractLsb'_append_eq_of_le (by omega)]
  exact BitVec.extractLsb'_append_eq_left

/-- The fields cover the word: no bit lies outside them. -/
theorem fields_append : rsvField v ++ nbField v ++ opField v = v := by
  have high : rsvField v ++ nbField v = v.extractLsb' 8 24 := BitVec.extractLsb'_append_extractLsb'_eq_extractLsb' rfl
  rw [high]
  exact BitVec.extractLsb'_append_extractLsb'

theorem word_eq_iff_fields : v = w ↔ rsvField v = rsvField w ∧ nbField v = nbField w ∧ opField v = opField w := by
  refine ⟨fun h => h ▸ ⟨rfl, rfl, rfl⟩, fun ⟨hrsv, hnb, hop⟩ => ?_⟩
  rw [← fields_append v, hrsv, hnb, hop, fields_append]

@[simp] theorem opField_and : opField (v &&& w) = opField v &&& opField w := BitVec.extractLsb'_and

@[simp] theorem nbField_and : nbField (v &&& w) = nbField v &&& nbField w := BitVec.extractLsb'_and

@[simp] theorem rsvField_and : rsvField (v &&& w) = rsvField v &&& rsvField w := BitVec.extractLsb'_and

end fields

/-! ### The command an opcode selects (R83) -/

section opcodes

variable {op : BitVec 8} {nb : BitVec 6} {i : Instr}

/-- The selected command has that opcode, and a byte count only where the opcode is SHA_FINAL's. -/
theorem ofOpcode_eq_some (h : ofOpcode op nb = some i) :
    i.wellFormed = true ∧ opcodeOf i = op ∧ byteCountOf i = if op = 0x03#8 then nb else 0#6 := by
  unfold ofOpcode at h
  iterate 6
    obtain ⟨rfl, hi⟩ | ⟨-, h⟩ := ite_eq_iff.1 h
    · cases hi
      simp [Instr.wellFormed, opcodeOf, byteCountOf, Nat.le_of_lt_succ nb.isLt]
  cases h

theorem ofOpcode_opcodeOf_byteCountOf (hi : i.wellFormed = true) : ofOpcode (opcodeOf i) (byteCountOf i) = some i := by
  cases i with
  | shaFinal r =>
    have hr : r ≤ 63 := of_decide_eq_true hi
    simp [ofOpcode, opcodeOf, byteCountOf, Nat.mod_eq_of_lt (Nat.lt_succ_of_le hr)]
  | _ => rfl

/-- Every command's opcode selects a command, whatever NB is. -/
theorem ofOpcode_opcodeOf_isSome (i : Instr) (nb : BitVec 6) : ∃ j, ofOpcode (opcodeOf i) nb = some j := by
  cases i <;> exact ⟨_, rfl⟩

/-- R85: the reserved opcodes are the others than the six. -/
theorem ofOpcode_eq_none_iff :
    ofOpcode op nb = none ↔ op ≠ 0x01#8 ∧ op ≠ 0x02#8 ∧ op ≠ 0x03#8 ∧ op ≠ 0x10#8 ∧ op ≠ 0x11#8 ∧ op ≠ 0x12#8 := by
  simp [ofOpcode, ite_eq_iff]

end opcodes

/-! ### The decoder and the encoder -/

/-- What the decoder accepts, field by field. -/
theorem decode_eq_ok_iff {v : Word} {i : Instr} :
    decode v = .ok i ↔
      ofOpcode (opField v) (nbField v) = some i ∧ rsvField v = 0#18 ∧ (nbField v = 0#6 ∨ opField v = 0x03#8) := by
  unfold decode
  cases ofOpcode (opField v) (nbField v) with
  | none => simp
  | some j =>
    by_cases hrsv : rsvField v = 0#18
    · simp [hrsv, ite_eq_iff, or_iff_not_imp_left, and_comm]
    · simp [hrsv]

theorem byteCountOf_eq_zero_or (i : Instr) : byteCountOf i = 0#6 ∨ opcodeOf i = 0x03#8 := by
  cases i with
  | shaFinal r => exact .inr rfl
  | _ => exact .inl rfl

/-- Settles O1: each field of the command word is the command's own, and the decoder accepts these fields. -/
theorem decodeEncodeRoundTrip : Obligations.DecodeEncodeRoundTrip := by
  unfold Obligations.DecodeEncodeRoundTrip
  intro i hi
  rw [decode_eq_ok_iff, encode, opField_append, nbField_append, rsvField_append]
  exact ⟨ofOpcode_opcodeOf_byteCountOf hi, rfl, byteCountOf_eq_zero_or i⟩

/-- Settles O2: the fields the decoder accepts are those of the command, and the word is its fields. -/
theorem decodedWordEncodesBack : Obligations.DecodedWordEncodesBack := by
  unfold Obligations.DecodedWordEncodesBack
  intro v i h
  obtain ⟨hof, hrsv, hnb⟩ := decode_eq_ok_iff.1 h
  obtain ⟨hwf, hop, hcount⟩ := ofOpcode_eq_some hof
  have hcount : byteCountOf i = nbField v := by
    rw [hcount, ite_eq_left_iff]
    exact fun hne => (hnb.resolve_right hne).symm
  refine ⟨hwf, ?_⟩
  rw [encode, hop, hcount, ← hrsv, fields_append]

/-! ### The opcode table (R83) -/

theorem tableMatch_eq (i : Instr) : tableMatch i = 0#18 ++ 0#6 ++ opcodeOf i := by
  cases i <;> simp [tableMatch, opcodeOf]

/-- The row of SHA_FINAL leaves NB free; every other row fixes all bits. -/
theorem tableMask_eq (i : Instr) :
    tableMask i = BitVec.allOnes 18 ++ (if opcodeOf i = 0x03#8 then 0#6 else BitVec.allOnes 6) ++ BitVec.allOnes 8 := by
  cases i <;> simp [tableMask, opcodeOf]

/-- A word selects the row of a command exactly when RSV is 0, OP is the command's, and NB is 0 or the row leaves it free. -/
theorem selects_iff (v : Word) (i : Instr) :
    selects v i ↔ opField v = opcodeOf i ∧ rsvField v = 0#18 ∧ (nbField v = 0#6 ∨ opField v = 0x03#8) := by
  simp only [selects, word_eq_iff_fields, tableMatch_eq, tableMask_eq, opField_and, nbField_and, rsvField_and,
    opField_append, nbField_append, rsvField_append, BitVec.and_allOnes, BitVec.and_zero, apply_ite (nbField v &&& ·), ite_eq_left_iff,
    or_iff_not_imp_right]
  by_cases hop : opField v = opcodeOf i <;> simp [hop]

theorem selects_of_decode {v : Word} {i : Instr} (h : decode v = .ok i) : selects v i := by
  obtain ⟨hof, hfields⟩ := decode_eq_ok_iff.1 h
  obtain ⟨_, hop, _⟩ := ofOpcode_eq_some hof
  exact (selects_iff v i).2 ⟨hop.symm, hfields⟩

theorem exists_decode_iff_exists_selects (v : Word) : (∃ i, decode v = .ok i) ↔ ∃ i, selects v i := by
  refine ⟨fun ⟨i, h⟩ => ⟨i, selects_of_decode h⟩, fun ⟨i, h⟩ => ?_⟩
  obtain ⟨hop, hfields⟩ := (selects_iff v i).1 h
  obtain ⟨j, hj⟩ := ofOpcode_opcodeOf_isSome i (nbField v)
  exact ⟨j, decode_eq_ok_iff.2 ⟨hop ▸ hj, hfields⟩⟩

/-- Settles O3: decoding and matching ask the same of the fields, and a row is determined by its opcode. -/
theorem legalExactlyWhenRowMatches : Obligations.LegalExactlyWhenRowMatches := by
  unfold Obligations.LegalExactlyWhenRowMatches
  refine fun v => ⟨exists_decode_iff_exists_selects v, fun i => selects_of_decode, fun i j hi hj => ?_⟩
  have hop : opcodeOf i = opcodeOf j := ((selects_iff v i).1 hi).1.symm.trans ((selects_iff v j).1 hj).1
  simp only [tableMatch_eq, tableMask_eq, hop, and_self]

/-- Settles O4: the legal words are command words, which decode back; each illegal one is rejected by evaluation. -/
theorem workedCommandWords : Obligations.WorkedCommandWords := by
  unfold Obligations.WorkedCommandWords
  have legal := decodeEncodeRoundTrip
  exact ⟨legal .shaInit rfl, legal .shaBlock rfl, legal (.shaFinal 0) rfl, legal (.shaFinal 3) rfl,
    legal (.shaFinal 55) rfl, legal (.shaFinal 56) rfl, legal (.shaFinal 63) rfl, legal .rsaModexp rfl, legal .rsaSign rfl,
    legal .rsaVerify rfl, by decide, by decide, by decide, by decide, by decide⟩

/-! ### Illegal words (R84) -/

theorem exists_error_iff_forall_ne_ok (v : Word) : (∃ x, decode v = .error x) ↔ ∀ i, decode v ≠ .ok i := by
  cases decode v <;> simp

/-- R84: the three reasons for which a word is illegal. -/
theorem exists_error_iff_fields (v : Word) :
    (∃ x, decode v = .error x) ↔
      ofOpcode (opField v) (nbField v) = none ∨ rsvField v ≠ 0#18 ∨ (nbField v ≠ 0#6 ∧ opField v ≠ 0x03#8) := by
  rw [exists_error_iff_forall_ne_ok]
  simp only [ne_eq, decode_eq_ok_iff, ← not_or, ← not_and_or, not_and]
  cases ofOpcode (opField v) (nbField v) <;> simp

theorem exists_error_iff_forall_not_selects (v : Word) : (∃ x, decode v = .error x) ↔ ∀ i, ¬ selects v i := by
  rw [exists_error_iff_forall_ne_ok, ← not_exists, exists_decode_iff_exists_selects, not_exists]

end Sys2Proof
end

section
/-!
Issue, the engine's move and the host's statements (R87, R88, R90): what a step is equal to, case by case.
-/
namespace Sys2Proof.Machine

/-! ### Issue (R87) -/

section issue

variable (v : Word) {s : State}

theorem busWrite_cmd_of_idle (hb : s.busy = false) : busWrite .w32 0x0010 v s = .next (s.issue v) := by
  rw [show 0x0010 = offsetOf .cmd from rfl, busWrite_offsetOf, writeReg, whenIdle, if_neg (by simp [hb])]

theorem busWrite_cmd_of_busy (hb : s.busy = true) : busWrite .w32 0x0010 v s = .next s.setWerr := by
  rw [show 0x0010 = offsetOf .cmd from rfl, busWrite_offsetOf, writeReg, whenIdle, if_pos hb]

end issue

/-- Settles O8: `State.issue` and `State.setWerr` are the two updates. -/
theorem cmdWriteIssues : Obligations.CmdWriteIssues := by
  unfold Obligations.CmdWriteIssues
  exact fun s v => ⟨busWrite_cmd_of_idle v, busWrite_cmd_of_busy v⟩

/-! ### The engine's move (R88) -/

section engine

variable {s : State}

theorem engineStep_of_idle (hb : s.busy = false) : engineStep s = .next s := if_neg (by simp [hb])

theorem engineStep_of_legal {i : Instr} (hb : s.busy = true) (hi : decode s.cur = .ok i) : engineStep s = exec i s := by
  rw [engineStep, if_pos hb, completeCur, hi]

theorem engineStep_of_illegal {x : DecodeError} (hb : s.busy = true) (hx : decode s.cur = .error x) :
    engineStep s = .next (s.finish .illegalCmd) := by
  rw [engineStep, if_pos hb, completeCur, hx]
  rfl

theorem step_of_engine (hm : nextTurn s = .engine) : step s = engineStep s.moved := by
  rw [step_eq, hm]
  rfl

theorem nextTurn_of_busy_unplanned (ht : s.turns = []) (hb : s.busy = true) : nextTurn s = .engine := by
  rw [nextTurn, ht]
  exact if_pos hb

theorem moved_of_unplanned (ht : s.turns = []) : s.moved = s := by
  cases s
  cases ht
  rfl

end engine

/-- Settles O6: the engine's move on the state with the planned move used up. -/
theorem stepRunsDecodedCommand : Obligations.StepRunsDecodedCommand := by
  unfold Obligations.StepRunsDecodedCommand
  refine ⟨fun s i hm hb hi => ?_, fun s hm hb => ?_⟩
  · rw [step_of_engine hm]
    exact engineStep_of_legal (s := s.moved) hb hi
  · rw [step_of_engine hm]
    exact engineStep_of_idle (s := s.moved) hb

/-- Settles O9: the word is issued; the busy engine moves next, and the word in CUR decodes to the command. -/
theorem issuedCommandRuns : Obligations.IssuedCommandRuns := by
  unfold Obligations.IssuedCommandRuns
  intro s i hi hb ht
  refine ⟨s.issue (encode i), busWrite_cmd_of_idle _ hb, rfl, ?_⟩
  have hm : nextTurn (s.issue (encode i)) = .engine := nextTurn_of_busy_unplanned ht rfl
  rw [step_of_engine hm, moved_of_unplanned (s := s.issue (encode i)) ht]
  exact engineStep_of_legal rfl (decodeEncodeRoundTrip i hi)

/-- Settles O5: legality by the fields and by the table; the word is issued as any other, and its completion is the engine's
move with ILLEGAL_CMD. -/
theorem illegalWordReportsIllegalCmd : Obligations.IllegalWordReportsIllegalCmd := by
  unfold Obligations.IllegalWordReportsIllegalCmd
  intro v
  refine ⟨?_, exists_error_iff_forall_not_selects v, fun s => busWrite_cmd_of_idle v, ?_⟩
  · rw [exists_error_iff_fields, ofOpcode_eq_none_iff]
  · rintro s ⟨x, hx⟩ hm hb rfl
    rw [step_of_engine hm]
    exact engineStep_of_illegal (s := s.moved) hb hx

/-! ### The host's statements (R90) -/

theorem hostStep_of_stmt {s : State} {st : Stmt} (h : s.host.prog[s.host.pc]? = some st) : hostStep s = execStmt st s := by
  rw [hostStep, h]

theorem hostStep_of_end {s : State} (h : s.host.prog[s.host.pc]? = none) : hostStep s = .next s := by
  rw [hostStep, h]

/-- Settles O49: the host's move is the statement at `pc`, and `execStmt` has one arm per statement. -/
theorem hostStatementMeanings : Obligations.HostStatementMeanings := by
  unfold Obligations.HostStatementMeanings
  exact fun s => ⟨fun _ _ => hostStep_of_stmt, fun _ => hostStep_of_stmt, fun _ _ => hostStep_of_stmt,
    fun _ _ => hostStep_of_stmt, hostStep_of_stmt, hostStep_of_end⟩

end Sys2Proof.Machine
end

section
/-!
The logical functions of SHA-256 bit by bit (R11, R101 to R106).
-/
namespace Sys2Proof.Machine

section bits

variable (x y z : Word) (i : Nat)

theorem ch_getLsbD (hi : i < 32) : (ch x y z).getLsbD i = if x.getLsbD i then y.getLsbD i else z.getLsbD i := by
  simp only [ch, BitVec.getLsbD_xor, BitVec.getLsbD_and, BitVec.getLsbD_not, hi, decide_true, Bool.true_and]
  have choice : ∀ a b c : Bool, ((a && b) ^^ (!a && c)) = if a then b else c := by decide
  exact choice _ _ _

theorem maj_getLsbD :
    (maj x y z).getLsbD i = decide (2 ≤ (x.getLsbD i).toNat + (y.getLsbD i).toNat + (z.getLsbD i).toNat) := by
  simp only [maj, BitVec.getLsbD_xor, BitVec.getLsbD_and]
  have majority : ∀ a b c : Bool,
      (((a && b) ^^ (a && c)) ^^ (b && c)) = decide (2 ≤ a.toNat + b.toNat + c.toNat) := by decide
  exact majority _ _ _

/-- R11: a bit that leaves on the right comes back on the left. -/
theorem rotr_getLsbD {n : Nat} (h0 : 0 < n) (hn : n < 32) (hi : i < 32) :
    (rotr x n).getLsbD i = x.getLsbD ((i + n) % 32) := by
  rw [rotr, BitVec.getLsbD_or, BitVec.getLsbD_ushiftRight, BitVec.getLsbD_shiftLeft]
  by_cases hwrap : i + n < 32
  · have notShifted : i < 32 - n := by omega
    simp [Nat.mod_eq_of_lt hwrap, notShifted, Nat.add_comm n i]
  · have shiftedOut : x.getLsbD (n + i) = false := BitVec.getLsbD_of_ge _ _ (by omega)
    have shifted : ¬ i < 32 - n := by omega
    have place : (i + n) % 32 = i - (32 - n) := by omega
    simp [shiftedOut, shifted, place, hi]

/-- R11: a shift brings in zeros. -/
theorem shr_getLsbD (n : Nat) : (shr x n).getLsbD i = (decide (i + n < 32) && x.getLsbD (i + n)) := by
  rw [shr, BitVec.getLsbD_ushiftRight, Nat.add_comm n i]
  by_cases h : i + n < 32
  · simp [h]
  · simp [h, BitVec.getLsbD_of_ge x (i + n) (by omega)]

end bits

/-- Settles O13: the bits of both functions are those of a truth table. -/
theorem chooseAndMajorityBitwise : Obligations.ChooseAndMajorityBitwise := by
  unfold Obligations.ChooseAndMajorityBitwise
  exact fun x y z i hi => ⟨ch_getLsbD x y z i hi, maj_getLsbD x y z i⟩

/-- Settles O14: each function is the exclusive or of rotations and shifts, whose bits are known. -/
theorem sigmaFunctionsBitwise : Obligations.SigmaFunctionsBitwise := by
  unfold Obligations.SigmaFunctionsBitwise
  intro x i hi
  simp (disch := omega) only [bigSigma0, bigSigma1, smallSigma0, smallSigma1, BitVec.getLsbD_xor, rotr_getLsbD,
    shr_getLsbD, and_self]

end Sys2Proof.Machine
end

section
/-!
The constants of SHA-256 as fraction bits of roots of primes (R107, R108).
-/
namespace Sys2Proof.Machine

/-- `w` is the first 32 fraction bits of the `d`-th root of `p`: for some whole part `a` below `p`, the `d`-th root of
p · 2^(32d) rounded down is a · 2^32 + w. -/
def isRootFraction (d p : Nat) (w : Word) : Bool :=
  (List.range p).any fun a =>
    Nat.ble ((a * 2 ^ 32 + w.toNat) ^ d) (p * 2 ^ (32 * d)) && Nat.blt (p * 2 ^ (32 * d)) ((a * 2 ^ 32 + w.toNat + 1) ^ d)

theorem exists_root_of_isRootFraction {d p : Nat} {w : Word} (h : isRootFraction d p w = true) :
    ∃ q, q ^ d ≤ p * 2 ^ (32 * d) ∧ p * 2 ^ (32 * d) < (q + 1) ^ d ∧ w = BitVec.ofNat 32 q := by
  obtain ⟨a, -, hroot⟩ := List.any_eq_true.1 h
  rw [Bool.and_eq_true, Nat.ble_eq, Nat.blt_eq] at hroot
  refine ⟨_, hroot.1, hroot.2, BitVec.eq_of_toNat_eq ?_⟩
  rw [BitVec.toNat_ofNat, Nat.mul_add_mod_self_right, Nat.mod_eq_of_lt w.isLt]

/-- Constants that pair with the primes as root fractions are root fractions place by place. -/
theorem exists_root_of_all {d : Nat} {ws : List Word}
    (h : (firstPrimes.zip ws).all (fun pw => isRootFraction d pw.1 pw.2) = true) {i p : Nat} (hi : i < ws.length)
    (hp : firstPrimes[i]? = some p) :
    ∃ q, q ^ d ≤ p * 2 ^ (32 * d) ∧ p * 2 ^ (32 * d) < (q + 1) ^ d ∧ ws[i]? = some (BitVec.ofNat 32 q) := by
  have hmem : (p, ws[i]) ∈ firstPrimes.zip ws :=
    List.mem_of_getElem? (List.getElem?_zip_eq_some.2 ⟨hp, List.getElem?_eq_getElem hi⟩)
  obtain ⟨q, hle, hlt, hw⟩ := exists_root_of_isRootFraction (List.all_eq_true.1 h _ hmem)
  exact ⟨q, hle, hlt, (List.getElem?_eq_getElem hi).trans (congrArg some hw)⟩

theorem firstPrimes_length : firstPrimes.length = 64 := by decide +kernel

theorem roundConstants_length : roundConstants.length = 64 := rfl

theorem initialHash_isRootFraction :
    (firstPrimes.zip (wordsOfVars initialHash)).all (fun pw => isRootFraction 2 pw.1 pw.2) = true := by
  decide +kernel

theorem roundConstants_isRootFraction :
    (firstPrimes.zip roundConstants).all (fun pw => isRootFraction 3 pw.1 pw.2) = true := by
  decide +kernel

/-- Settles O15: the whole part of each root is found among finitely many. -/
theorem constantsAreRootFractions : Obligations.ConstantsAreRootFractions := by
  unfold Obligations.ConstantsAreRootFractions
  refine ⟨firstPrimes_length, by decide +kernel, rfl, roundConstants_length, ?_, ?_⟩
  · exact fun i p hi hp => exists_root_of_all initialHash_isRootFraction hi hp
  · intro t p hp
    obtain ⟨ht, -⟩ := List.getElem?_eq_some_iff.1 hp
    exact exists_root_of_all roundConstants_isRootFraction (by rwa [firstPrimes_length, ← roundConstants_length] at ht) hp

end Sys2Proof.Machine
end

section
/-!
The message schedule and the compression function (R109 to R112).
-/
namespace Sys2Proof.Machine

/-! ### Schedule (R109) -/

theorem extendSchedule_length (k : Nat) (w : List Word) : (extendSchedule k w).length = w.length + k := by
  induction k generalizing w with
  | zero => rfl
  | succ k ih => rw [extendSchedule, ih, List.length_append, List.length_singleton, Nat.add_assoc, Nat.add_comm 1 k]

theorem isPrefix_extendSchedule (k : Nat) (w : List Word) : w <+: extendSchedule k w := by
  induction k generalizing w with
  | zero => exact List.prefix_rfl
  | succ k ih => exact (List.prefix_append w _).trans (ih _)

/-- Each appended word is computed from the words before it. -/
theorem extendSchedule_getElem? {k : Nat} {w : List Word} {t : Nat} (hw : w.length ≤ t) (ht : t < w.length + k) :
    (extendSchedule k w)[t]? = some (nextScheduleWord ((extendSchedule k w).take t)) := by
  induction k generalizing w with
  | zero => omega
  | succ k ih =>
    by_cases hnow : t = w.length
    · have before : (extendSchedule (k + 1) w).take t = w := by
        rw [hnow, ← List.prefix_iff_eq_take.1 (isPrefix_extendSchedule (k + 1) w)]
      rw [before, extendSchedule, (List.prefix_iff_getElem?.1 (isPrefix_extendSchedule k _)) t (by simp [hnow])]
      simp [hnow]
    · have hlen : (w ++ [nextScheduleWord w]).length = w.length + 1 := List.length_append
      exact ih (by omega) (by omega)

/-- With at least `t` words, the word after the first `t` by its four earlier words. -/
theorem nextScheduleWord_take {w : List Word} {t : Nat} (h16 : 16 ≤ t) (ht : t ≤ w.length) :
    nextScheduleWord (w.take t) = smallSigma1 (w.getD (t - 2) 0#32) + w.getD (t - 7) 0#32
      + smallSigma0 (w.getD (t - 15) 0#32) + w.getD (t - 16) 0#32 := by
  have earlier (j : Nat) (hj : j < t) : (w.take t).getD j 0#32 = w.getD j 0#32 := by
    rw [List.getD_eq_getElem?_getD, List.getElem?_take_of_lt hj, List.getD_eq_getElem?_getD]
  rw [nextScheduleWord, List.length_take_of_le ht, earlier _ (by omega), earlier _ (by omega), earlier _ (by omega),
    earlier _ (by omega)]

theorem schedule_length {m : List Word} (hm : m.length = 16) : (schedule m).length = 64 := by
  rw [schedule, extendSchedule_length, hm]

/-- Settles O16: the schedule begins with the block, and each later word is made from the words before it. -/
theorem scheduleRecurrence : Obligations.ScheduleRecurrence := by
  unfold Obligations.ScheduleRecurrence
  intro m hm
  refine ⟨schedule_length hm, fun t ht => ?_, fun t h16 ht => ?_⟩
  · have ht : t < m.length := by omega
    rw [schedule, List.prefix_iff_getElem?.1 (isPrefix_extendSchedule 48 m) t ht, List.getElem?_eq_getElem ht]
  · rw [← nextScheduleWord_take h16 (by rw [schedule_length hm]; omega)]
    exact extendSchedule_getElem? (by omega) (by omega)

/-! ### Compression (R110 to R112) -/

/-- A sequence that each round continues ends in the working variables after all rounds. -/
theorem rounds_zip {n : Nat} {ks ws : List Word} {v : Nat → Vars} (hk : ks.length = n) (hw : ws.length = n)
    (h : ∀ t, t < n → v (t + 1) = round (v t) (ks.getD t 0#32) (ws.getD t 0#32)) : rounds (v 0) (ks.zip ws) = v n := by
  induction n generalizing ks ws v with
  | zero => rw [List.length_eq_zero_iff.1 hk, List.zip_nil_left]; rfl
  | succ n ih =>
    obtain ⟨k, ks, rfl⟩ := List.exists_cons_of_length_eq_add_one hk
    obtain ⟨w, ws, rfl⟩ := List.exists_cons_of_length_eq_add_one hw
    have first : v 1 = round (v 0) k w := h 0 (Nat.succ_pos n)
    have rest : rounds (v 1) (ks.zip ws) = v (n + 1) :=
      ih (v := fun t => v (t + 1)) (Nat.succ.inj hk) (Nat.succ.inj hw) fun t ht => h (t + 1) (Nat.succ_lt_succ ht)
    rwa [first] at rest

/-- Settles O17: the rounds run over the 64 pairs of a constant and a schedule word. -/
theorem compressionRunsSixtyFourRounds : Obligations.CompressionRunsSixtyFourRounds := by
  unfold Obligations.CompressionRunsSixtyFourRounds
  rintro _ m v hm rfl hround
  rw [compress, rounds_zip roundConstants_length (schedule_length hm) hround, accumulate]

end Sys2Proof.Machine
end

section
/-!
Bytes packed into words (R12, R64) and the padding unit (R114).
-/
namespace Sys2Proof.Machine

/-! ### Packing bytes into words -/

theorem wordsOfBytes_length : ∀ bs : List Byte, (wordsOfBytes bs).length = bs.length / 4
  | [] | [_] | [_, _] | [_, _, _] => by simp [wordsOfBytes]
  | _ :: _ :: _ :: _ :: bs => by
    rw [wordsOfBytes, List.length_cons, wordsOfBytes_length bs]
    simp only [List.length_cons]
    omega

/-- Word i is packed from bytes 4i to 4i + 3. -/
theorem wordsOfBytes_getElem? {bs : List Byte} {i : Nat} (hi : 4 * i + 3 < bs.length) :
    (wordsOfBytes bs)[i]? = some (be32 (bs.getD (4 * i) 0#8) (bs.getD (4 * i + 1) 0#8) (bs.getD (4 * i + 2) 0#8)
      (bs.getD (4 * i + 3) 0#8)) := by
  induction i generalizing bs with
  | zero =>
    match bs, hi with
    | _ :: _ :: _ :: _ :: _, _ => rfl
  | succ i ih =>
    match bs, hi with
    | _ :: _ :: _ :: _ :: bs, hi => exact ih (by simp only [List.length_cons] at hi; omega)

/-! ### The padded bytes -/

section padBytes

variable (p : List Byte) (len : BitVec 64)

theorem padBytes_eq :
    padBytes p len = p ++ 0x80#8 :: (List.replicate (padZeros p.length) 0x00#8 ++ be64 len) := by
  rw [padBytes, List.append_assoc, List.append_assoc, List.singleton_append]

/-- The zeros fill the last block up to the length. -/
theorem padZeros_fill {r : Nat} (hr : r ≤ 63) : r + 1 + padZeros r + 8 = 64 * padBlockCount r := by
  rw [padZeros, padBlockCount]
  split <;> omega

theorem padBytes_length (hp : p.length ≤ 63) : (padBytes p len).length = 64 * padBlockCount p.length := by
  simp only [← padZeros_fill hp, padBytes, be64, List.length_append, List.length_singleton, List.length_replicate,
    List.length_map, List.length_range]

theorem padBytes_getElem?_message {k : Nat} (hk : k < p.length) : (padBytes p len)[k]? = p[k]? := by
  rw [padBytes_eq, List.getElem?_append_left hk]

theorem padBytes_getElem?_marker : (padBytes p len)[p.length]? = some 0x80#8 := by
  rw [padBytes_eq, List.getElem?_append_right (Nat.le_refl _), Nat.sub_self, List.getElem?_cons_zero]

/-- Past the message and the marker stand the zeros and the length. -/
theorem padBytes_getElem?_tail (k : Nat) :
    (padBytes p len)[p.length + 1 + k]? = (List.replicate (padZeros p.length) 0x00#8 ++ be64 len)[k]? := by
  rw [padBytes_eq, List.getElem?_append_right (by omega), show p.length + 1 + k - p.length = k + 1 by omega,
    List.getElem?_cons_succ]

theorem padBytes_getElem?_zero {k : Nat} (hk : k < padZeros p.length) :
    (padBytes p len)[p.length + 1 + k]? = some 0x00#8 := by
  rw [padBytes_getElem?_tail, List.getElem?_append_left (by rwa [List.length_replicate]),
    List.getElem?_replicate_of_lt hk]

theorem padBytes_getElem?_length {k : Nat} (hk : k < 8) :
    (padBytes p len)[p.length + 1 + padZeros p.length + k]? = some (len.extractLsb' (56 - 8 * k) 8) := by
  rw [Nat.add_assoc, padBytes_getElem?_tail, List.getElem?_append_right (by simp), List.length_replicate,
    Nat.add_sub_cancel_left, be64, List.getElem?_map, List.getElem?_range hk]
  rfl

end padBytes

/-! ### The blocks -/

theorem blocksOf_length (k : Nat) (ws : List Word) : (blocksOf k ws).length = k := by
  induction k generalizing ws with
  | zero => rfl
  | succ k ih => rw [blocksOf, List.length_cons, ih]

theorem blocksOf_getElem? {k j : Nat} (hj : j < k) (ws : List Word) :
    (blocksOf k ws)[j]? = some ((ws.drop (16 * j)).take 16) := by
  induction j generalizing k ws with
  | zero =>
    obtain ⟨k, rfl⟩ := Nat.exists_eq_add_one_of_ne_zero (Nat.ne_of_gt hj)
    rfl
  | succ j ih =>
    obtain ⟨k, rfl⟩ := Nat.exists_eq_add_one_of_ne_zero (Nat.ne_of_gt (Nat.zero_lt_of_lt hj))
    rw [blocksOf, List.getElem?_cons_succ, ih (Nat.lt_of_succ_lt_succ hj), List.drop_drop, Nat.mul_succ, Nat.add_comm 16]

section pad

variable {p : List Byte} (len : BitVec 64) {j : Nat} (hj : j < padBlockCount p.length)

include hj

theorem pad_getD : (pad p len).getD j [] = ((wordsOfBytes (padBytes p len)).drop (16 * j)).take 16 := by
  rw [pad, List.getD_eq_getElem?_getD, blocksOf_getElem? hj, Option.getD_some]

theorem pad_getD_length (hp : p.length ≤ 63) : ((pad p len).getD j []).length = 16 := by
  rw [pad_getD len hj, List.length_take, List.length_drop, wordsOfBytes_length, padBytes_length p len hp]
  omega

/-- Word i of block j is packed from the padded bytes from 64j + 4i on. -/
theorem pad_getD_getElem? (hp : p.length ≤ 63) {i : Nat} (hi : i < 16) :
    ((pad p len).getD j [])[i]? = some (be32
      ((padBytes p len).getD (64 * j + 4 * i) 0#8) ((padBytes p len).getD (64 * j + 4 * i + 1) 0#8)
      ((padBytes p len).getD (64 * j + 4 * i + 2) 0#8) ((padBytes p len).getD (64 * j + 4 * i + 3) 0#8)) := by
  have place : 64 * j + 4 * i = 4 * (16 * j + i) := by omega
  rw [pad_getD len hj, List.getElem?_take_of_lt hi, List.getElem?_drop, place, wordsOfBytes_getElem?]
  rw [padBytes_length p len hp]
  omega

end pad

/-- Settles O18: the padded bytes part by part, then the blocks word by word. -/
theorem paddingFollowsRule : Obligations.PaddingFollowsRule := by
  unfold Obligations.PaddingFollowsRule
  intro p len hp
  have hfill := padZeros_fill hp
  refine ⟨padBlockCount p.length, rfl, padBytes_length p len hp, fun k => padBytes_getElem?_message p len,
    padBytes_getElem?_marker p len, fun k hlow hhigh => ?_, fun k hk => ?_, blocksOf_length _ _,
    fun j hj => ⟨pad_getD_length len hj hp, fun i => pad_getD_getElem? len hj hp⟩⟩
  · obtain ⟨d, rfl⟩ := Nat.exists_eq_add_of_le (Nat.succ_le_of_lt hlow)
    exact padBytes_getElem?_zero p len (by omega)
  · rw [← hfill, Nat.add_sub_cancel, padBytes_getElem?_length p len hk]

end Sys2Proof.Machine
end

section
/-!
The three SHA commands (R115 to R117): what each answers.
-/
namespace Sys2Proof.Machine

/-- Settles O19: SHA_INIT has no check that could fail. -/
theorem shaInitFollowsRule : Obligations.ShaInitFollowsRule := by
  unfold Obligations.ShaInitFollowsRule
  exact ⟨by decide, execShaInit_eq⟩

/-- Settles O20: the two checks come in the order of the rule. -/
theorem shaBlockFollowsRule : Obligations.ShaBlockFollowsRule := by
  unfold Obligations.ShaBlockFollowsRule
  refine ⟨by decide, fun s => ⟨execShaBlock_of_active, fun ha => ?_, fun ha hover => ?_, fun h512 => ?_⟩⟩
  · rw [exec_shaBlock, execShaBlock, if_pos ha]
    rfl
  · rw [exec_shaBlock, execShaBlock, if_neg (by simp [ha]), if_pos ((lenOverflows_iff _).2 hover)]
    rfl
  · have hlt := s.len.isLt
    omega

theorem encode_shaFinal_toNat {r : Nat} (hr : r ≤ 63) : (encode (.shaFinal r)).toNat = 3 + r * 2 ^ 8 := by
  simp only [encode, byteCountOf, opcodeOf, toNat_append_eq_add, BitVec.toNat_ofNat]
  omega

/-- D7, R116: a message in progress is whole blocks, so its length has room for 63 more bytes. -/
theorem EngineInv.len_add_bytes_lt {s : State} (hs : EngineInv s) (ha : s.shaActive = true) {r : Nat} (hr : r ≤ 63) :
    s.len.toNat + 8 * r < 2 ^ 64 := by
  have hblocks := hs.lenBlocks ha
  have hlt := s.len.isLt
  omega

/-- LEN after 8r more bits, where they fit. -/
theorem toNat_len_add {len : BitVec 64} {k : Nat} (h : len.toNat + k < 2 ^ 64) :
    (len + BitVec.ofNat 64 k).toNat = len.toNat + k := by
  rw [BitVec.toNat_add, BitVec.toNat_ofNat, Nat.add_mod_mod, Nat.mod_eq_of_lt h]

/-- Settles O21: from the list of bytes for the completion, and from the cases of the rule for the exact length. -/
theorem shaFinalFollowsRule : Obligations.ShaFinalFollowsRule := by
  unfold Obligations.ShaFinalFollowsRule
  refine ⟨fun _ => encode_shaFinal_toNat, fun s r p hr ha hlen hp => exec_shaFinal_of_bytes hr ha hlen hp,
    fun s r hr ha => ?_, fun s t r hs ha ht => ?_⟩
  · rw [exec_shaFinal, execShaFinal_eq hr, if_pos ha]
    rfl
  · obtain ⟨hr, ⟨hidle, -⟩ | ⟨-, rfl⟩⟩ := execShaFinal_next ht
    · rw [ha] at hidle
      cases hidle
    · exact ⟨rfl, toNat_len_add (hs.len_add_bytes_lt ha hr)⟩

/-- The first r bytes of MSG, as the rule lists them (R113, R117). -/
theorem firstBytes_getElem? (msg : Vector DataWord 16) {r k : Nat} (hr : r ≤ 63) (hk : k < r) :
    ((bytesOfWords (valuesOf msg.toList)).take r)[k]?
      = some (byteOf (k % 4) ((valuesOf msg.toList).getD (k / 4) 0#32)) := by
  have hword : k / 4 < (valuesOf msg.toList).length := by rw [valuesOf_length, Vector.length_toList]; omega
  rw [List.getElem?_take_of_lt hk, bytesOfWords_getElem?, List.getD_eq_getElem?_getD, List.getElem?_eq_getElem hword]
  rfl

/-- SHA_FINAL takes the same bytes from two registers that hold the same first r bytes (R117). -/
theorem finalBytes_congr {msg msg' : Vector DataWord 16} {r : Nat} (hr : r ≤ 63)
    (h : ∀ k, k < r → byteOf (k % 4) ((valuesOf msg'.toList).getD (k / 4) 0#32)
      = byteOf (k % 4) ((valuesOf msg.toList).getD (k / 4) 0#32)) :
    (bytesOfWords (valuesOf (finalWords msg' r))).take r = (bytesOfWords (valuesOf (finalWords msg r))).take r := by
  have hlen : ((bytesOfWords (valuesOf msg.toList)).take r).length = r := by
    rw [List.length_take, bytesOfWords_length, valuesOf_length, Vector.length_toList]
    omega
  have hfirst (k : Nat) (hk : k < r) := firstBytes_getElem? msg hr hk
  rw [finalBytes_eq hr hlen hfirst, finalBytes_eq hr hlen fun k hk => h k hk ▸ hfirst k hk]

/-- Settles O22: SHA_FINAL reads MSG only through the first r bytes, and writes none of it. -/
theorem shaFinalIgnoresLaterBytes : Obligations.ShaFinalIgnoresLaterBytes := by
  unfold Obligations.ShaFinalIgnoresLaterBytes
  intro s t r msg ht hsame
  obtain ⟨hr, ⟨ha, rfl⟩ | ⟨ha, rfl⟩⟩ := execShaFinal_next ht
  · rw [exec_shaFinal, execShaFinal_eq hr, if_pos ha]
    rfl
  · rw [exec_shaFinal, execShaFinal_of_active (s := { s with msg := msg }) hr ha, finalUpdate, finalUpdate,
      finalBytes_congr hr hsame]
    rfl

end Sys2Proof.Machine
end

section
/-!
The command sequence of R119: each command hashes the bytes that were loaded before it, so the sequence hashes the message.
-/
namespace Sys2Proof.Machine

/-! ### Loaded bytes -/

/-- R12: byte j of a word packed from four bytes is the j-th of them. -/
theorem byteOf_be32 (b : Nat → Byte) {j : Nat} (hj : j < 4) : byteOf j (be32 (b 0) (b 1) (b 2) (b 3)) = b j := by
  have h0 := (b 0).isLt
  have h1 := (b 1).isLt
  have h2 := (b 2).isLt
  have h3 := (b 3).isLt
  apply BitVec.eq_of_toNat_eq
  simp only [byteOf, be32, BitVec.extractLsb'_toNat, toNat_append_eq_add, Nat.shiftRight_eq_div_pow]
  match j, hj with
  | 0, _ | 1, _ | 2, _ | 3, _ => omega

/-- R64: a loaded word is packed from the four bytes of its place. -/
theorem loadBytes_word {bs : List Byte} {i : Nat} (h16 : i < 16) (hi : 4 * i < bs.length) (s : State) :
    (valuesOf (loadBytes bs s).msg.toList)[i]? = some (be32 (bs.getD (4 * i) 0#8) (bs.getD (4 * i + 1) 0#8)
      (bs.getD (4 * i + 2) 0#8) (bs.getD (4 * i + 3) 0#8)) := by
  simp [loadBytes, valuesOf, h16, hi]

/-- 64 bytes fill MSG with their words. -/
theorem loadBytes_block {bs : List Byte} (hbs : bs.length = 64) (s : State) :
    valuesOf (loadBytes bs s).msg.toList = wordsOfBytes bs := by
  apply List.ext_getElem?
  intro i
  by_cases h16 : i < 16
  · rw [loadBytes_word h16 (by omega), wordsOfBytes_getElem? (by omega)]
  · rw [List.getElem?_eq_none (by rw [valuesOf_length, Vector.length_toList]; omega),
      List.getElem?_eq_none (by rw [wordsOfBytes_length]; omega)]

/-- Each loaded byte stands in its place of MSG. -/
theorem loadBytes_byte {bs : List Byte} (hbs : bs.length ≤ 64) (s : State) {k : Nat} (hk : k < bs.length) :
    bs[k]? = some (byteOf (k % 4) ((valuesOf (loadBytes bs s).msg.toList).getD (k / 4) 0#32)) := by
  have hbyte := byteOf_be32 (fun j => bs.getD (4 * (k / 4) + j) 0#8) (Nat.mod_lt k (by decide : 0 < 4))
  rw [List.getD_eq_getElem?_getD, loadBytes_word (by omega) (by omega), Option.getD_some]
  refine Eq.trans ?_ (congrArg some hbyte.symm)
  rw [Nat.div_add_mod, List.getD_eq_getElem _ _ hk, List.getElem?_eq_getElem hk]

/-! ### The commands on loaded bytes -/

@[simp] theorem State.setHash_hashVars (s : State) (v : Vars) (len : BitVec 64) :
    (s.setHash (hashRegister v) len).hashVars = v := rfl

@[simp] theorem State.setShaFlags_hashVars (s : State) (active valid : Bool) :
    (s.setShaFlags active valid).hashVars = s.hashVars := rfl

section loaded

variable {s : State} (ha : s.shaActive = true)

include ha

/-- SHA_BLOCK absorbs a loaded block (R116, R119). -/
theorem exec_shaBlock_loadBytes {bs : List Byte} (hbs : bs.length = 64) (hl : s.len.toNat + 512 ≤ 2 ^ 64 - 1) :
    ∃ t, exec .shaBlock (loadBytes bs s) = .next t ∧ t.shaActive = true
      ∧ t.hashVars = compress s.hashVars (wordsOfBytes bs) ∧ t.len.toNat = s.len.toNat + 512 := by
  have ha' := (loadBytes_shaActive bs s).trans ha
  refine ⟨_, execShaBlock_of_active ha' (by rwa [loadBytes_len]), ha', ?_, ?_⟩
  · rw [State.finish_hashVars, State.setHash_hashVars, loadBytes_hashVars, loadBytes_block hbs]
  · rw [State.finish_len, State.setHash_len, loadBytes_len, toNat_len_add (by omega)]

/-- The full blocks of a message are absorbed in order (R119). -/
theorem hashBlocks_absorbs {k : Nat} {m : List Byte} (hm : 64 * k ≤ m.length)
    (hl : s.len.toNat + 512 * k < 2 ^ 64) :
    ∃ t, hashBlocks k m s = .next t ∧ t.shaActive = true ∧ t.hashVars = absorb s.hashVars (fullBlocks k m)
      ∧ t.len.toNat = s.len.toNat + 512 * k := by
  induction k generalizing m s with
  | zero => exact ⟨s, rfl, ha, rfl, rfl⟩
  | succ k ih =>
    have hroom : s.len.toNat + 512 ≤ 2 ^ 64 - 1 := by omega
    obtain ⟨u, hu, hua, huvars, hulen⟩ :=
      exec_shaBlock_loadBytes ha (bs := m.take 64) (by rw [List.length_take]; omega) hroom
    obtain ⟨t, ht, hta, htvars, htlen⟩ := ih hua (m := m.drop 64) (by rw [List.length_drop]; omega) (by omega)
    refine ⟨t, ?_, hta, ?_, by omega⟩
    · rw [hashBlocks, hu, andThen, ht]
    · rw [htvars, huvars, fullBlocks, absorb, absorb, List.foldl_cons]

/-- SHA_FINAL finishes the digest over the loaded rest (R117, R119). -/
theorem exec_shaFinal_loadBytes {p : List Byte} (hp : p.length ≤ 63) :
    ∃ t, exec (.shaFinal p.length) (loadBytes p s) = .next t
      ∧ t.h = hashRegister (absorb s.hashVars (pad p (s.len + BitVec.ofNat 64 (8 * p.length))))
      ∧ t.len = s.len + BitVec.ofNat 64 (8 * p.length)
      ∧ t.digestValid = true ∧ t.shaActive = false ∧ t.err = 0x0#4 := by
  refine ⟨_, exec_shaFinal_of_bytes hp ((loadBytes_shaActive p s).trans ha) rfl
    fun k => loadBytes_byte (Nat.le_succ_of_le hp) s, ?_, ?_, rfl, rfl, rfl⟩
  · rw [State.finish_h, State.setShaFlags_h, State.setHash_h, loadBytes_len, loadBytes_h]
    rfl
  · rw [State.finish_len, State.setShaFlags_len, State.setHash_len, loadBytes_len]

end loaded

/-- Settles O24: SHA_INIT gives the IV, the full blocks are absorbed in order, and the padded rest last. -/
theorem commandSequenceHashesMessage : Obligations.CommandSequenceHashesMessage := by
  unfold Obligations.CommandSequenceHashesMessage
  intro m s hm
  obtain ⟨u, hu, hua, huvars, hulen⟩ := hashBlocks_absorbs (k := m.length / 64) (m := m)
    (s := ((s.setHash (hashRegister initialHash) 0#64).setShaFlags true false).finish .ok) rfl (by omega)
    (by rw [State.finish_len, State.setShaFlags_len, State.setHash_len, BitVec.toNat_zero]; omega)
  have hrest : (m.drop (64 * (m.length / 64))).length = m.length % 64 := by rw [List.length_drop]; omega
  obtain ⟨t, ht, hth, htlen, hflags⟩ := exec_shaFinal_loadBytes hua (p := m.drop (64 * (m.length / 64))) (by omega)
  have htotal : t.len.toNat = 8 * m.length := by
    rw [State.finish_len, State.setShaFlags_len, State.setHash_len, BitVec.toNat_zero] at hulen
    rw [htlen, hrest, toNat_len_add (by omega)]
    omega
  rw [hrest] at ht
  refine ⟨t, ?_, by rw [hth, hashRegister_allWritten], ?_, htotal, hflags⟩
  · rw [hashCommands, exec_shaInit, execShaInit_eq, andThen, hu, andThen, ht]
  · have hbits : t.len = BitVec.ofNat 64 (8 * m.length) := by rw [← htotal, BitVec.ofNat_toNat, BitVec.setWidth_eq]
    rw [hth, valuesOf_hashRegister, ← htlen, hbits, huvars, hashOf]
    rfl

end Sys2Proof.Machine
end

section
/-!
The RSA commands (R142, R146 to R149): the datapath's corner cases, the error arms of each command, and the four rules. The
arms without error stand above as `exec_rsaModexp_of_modulus`, `exec_rsaSign_of_key` and `exec_rsaVerify_of_key`.
-/
namespace Sys2Proof.Machine

/-- Settles O25: each corner case is one of the modular power. -/
theorem modExpIsModularPower : Obligations.ModExpIsModularPower := by
  unfold Obligations.ModExpIsModularPower
  intro b x n _
  refine ⟨modExp_eq_pow b x n, ?_, fun hx => ?_, ?_, ?_⟩
  · rw [modExp_eq_pow, pow_zero]
  · rw [modExp_eq_pow, zero_pow (Nat.ne_of_gt hx), Nat.zero_mod]
  · rw [modExp_eq_pow, Nat.mod_one]
  · rw [modExp_eq_pow, modExp_eq_pow, Nat.pow_mod]

/-! ### The error arms -/

section errors

variable {s : State}

theorem exec_rsaSign_of_no_digest (hd : s.digestValid = false) : exec .rsaSign s = .next (s.finish .noDigest) := by
  rw [exec_rsaSign, execRsaSign, if_pos hd, raiseError_eq]

theorem exec_rsaSign_of_bad_key (hd : s.digestValid = true) (hk : ¬ (s.nInt % 2 = 1 ∧ 1 < s.eInt ∧ s.eInt < s.nInt)) :
    exec .rsaSign s = .next (s.finish .keyInvalid) := by
  rw [exec_rsaSign, execRsaSign, if_neg (by simp [hd]), if_pos ((keyOk_eq_false_iff _ _).2 hk), raiseError_eq]

theorem exec_rsaVerify_of_no_digest (hd : s.digestValid = false) :
    exec .rsaVerify s = .next ((s.setVerifyOk false).finish .noDigest) := by
  rw [exec_rsaVerify, execRsaVerify, if_pos hd, raiseVerifyError_eq]

theorem exec_rsaVerify_of_bad_key (hd : s.digestValid = true)
    (hk : ¬ (s.nInt % 2 = 1 ∧ 1 < s.eInt ∧ s.eInt < s.nInt)) :
    exec .rsaVerify s = .next ((s.setVerifyOk false).finish .keyInvalid) := by
  rw [exec_rsaVerify, execRsaVerify, if_neg (by simp [hd]), if_pos ((keyOk_eq_false_iff _ _).2 hk), raiseVerifyError_eq]

theorem exec_rsaVerify_of_large_signature (hd : s.digestValid = true)
    (hk : s.nInt % 2 = 1 ∧ 1 < s.eInt ∧ s.eInt < s.nInt) (hb : s.nInt ≤ s.bInt) :
    exec .rsaVerify s = .next ((s.setVerifyOk false).finish .invalidSignature) := by
  rw [exec_rsaVerify, execRsaVerify, if_neg (by simp [hd]), if_neg (by rwa [keyOk_eq_false_iff, not_not]), if_pos hb,
    raiseVerifyError_eq]

end errors

/-! ### The rules -/

/-- Settles O27: int(N) decides between the two arms. -/
theorem rsaModexpFollowsRule : Obligations.RsaModexpFollowsRule := by
  unfold Obligations.RsaModexpFollowsRule
  exact ⟨by decide, fun _ => ⟨exec_rsaModexp_of_modulus, exec_rsaModexp_of_zero⟩⟩

/-- Settles O28: the digest is checked before the key. -/
theorem rsaSignFollowsRule : Obligations.RsaSignFollowsRule := by
  unfold Obligations.RsaSignFollowsRule
  exact ⟨by decide, fun _ => ⟨fun hd ho h1 hn => exec_rsaSign_of_key hd ⟨ho, h1, hn⟩, exec_rsaSign_of_no_digest,
    exec_rsaSign_of_bad_key⟩⟩

/-- Settles O29: the digest is checked before the key, and the key before the signature's range. -/
theorem rsaVerifyFollowsRule : Obligations.RsaVerifyFollowsRule := by
  unfold Obligations.RsaVerifyFollowsRule
  exact ⟨by decide, fun _ => ⟨fun hd ho h1 hn hb => exec_rsaVerify_of_key hd ⟨ho, h1, hn⟩ hb,
    exec_rsaVerify_of_no_digest, exec_rsaVerify_of_bad_key,
    fun hd ho h1 hn hb => exec_rsaVerify_of_large_signature hd ⟨ho, h1, hn⟩ hb⟩⟩

/-- VERIFY_OK = 1 after RSA_VERIFY means that every check passed: each error clears it (R148). -/
theorem checks_of_verifyOk {s t : State} (h : exec .rsaVerify s = .next t) (hv : t.verifyOk = true) :
    s.digestValid = true ∧ (s.nInt % 2 = 1 ∧ 1 < s.eInt ∧ s.eInt < s.nInt) ∧ s.bInt < s.nInt
      ∧ s.digest % s.nInt = s.bInt ^ s.eInt % s.nInt := by
  obtain ⟨-, rfl⟩ | ⟨-, -, rfl⟩ | ⟨-, -, -, rfl⟩ | ⟨hd, hk, hb, rfl⟩ := execRsaVerify_next h
  · cases hv
  · cases hv
  · cases hv
  · rw [State.finish_verifyOk, State.setVerifyOk_verifyOk, decide_eq_true_iff, modExp_eq_pow] at hv
    exact ⟨hd, hk, hb, hv⟩

/-- Settles O30: VERIFY_OK alone tells the accepted signatures, and a mismatch ends in the arm without error. -/
theorem verifyAcceptsExactlyOnMatch : Obligations.VerifyAcceptsExactlyOnMatch := by
  unfold Obligations.VerifyAcceptsExactlyOnMatch
  refine ⟨fun s t ht => ⟨fun ⟨_, hv⟩ => checks_of_verifyOk ht hv, fun ⟨hd, hk, hb, hmatch⟩ => ?_⟩,
    fun s hd ho h1 hn hb hmismatch => ?_⟩
  · rw [exec_rsaVerify_of_key hd hk hb] at ht
    obtain rfl := next_inj ht
    exact ⟨rfl, decide_eq_true hmatch⟩
  · exact ⟨_, exec_rsaVerify_of_key hd ⟨ho, h1, hn⟩ hb, rfl, decide_eq_false hmismatch⟩

end Sys2Proof.Machine
end

section
/-!
Purity of the RSA commands (R150): what a command does is fixed by its operands, and doing it twice is doing it once.
-/
namespace Sys2Proof.Machine

/-- What an RSA command does to a state: the values it writes to R and VERIFY_OK, if any, and its result code. -/
structure RsaEffect where
  r : Option (Vector DataWord 128)
  verifyOk : Option Bool
  code : ErrCode

/-- The completion with that effect: a register without a new value keeps its own. -/
def RsaEffect.apply (f : RsaEffect) (s : State) : State :=
  ((s.setR (f.r.getD s.r)).setVerifyOk (f.verifyOk.getD s.verifyOk)).finish f.code

theorem RsaEffect.apply_apply (f : RsaEffect) (s : State) : f.apply (f.apply s) = f.apply s := by
  obtain ⟨r, v, code⟩ := f
  cases r <;> cases v <;> rfl

theorem RsaEffect.apply_r {f : RsaEffect} (h : f.r.isSome = true) (s s' : State) : (f.apply s').r = (f.apply s).r := by
  obtain ⟨r, hr⟩ := Option.isSome_iff_exists.1 h
  simp [RsaEffect.apply, hr]

theorem RsaEffect.apply_verifyOk {f : RsaEffect} (h : f.verifyOk.isSome = true) (s s' : State) :
    (f.apply s').verifyOk = (f.apply s).verifyOk := by
  obtain ⟨v, hv⟩ := Option.isSome_iff_exists.1 h
  simp [RsaEffect.apply, hv]

/-- Two states with the same operands of an RSA command; RSA_MODEXP reads no digest (R150). -/
structure SameOperands (i : Instr) (s s' : State) : Prop where
  nInt : s'.nInt = s.nInt
  eInt : s'.eInt = s.eInt
  bInt : s'.bInt = s.bInt
  digest : i ≠ .rsaModexp → s'.digest = s.digest
  digestValid : i ≠ .rsaModexp → s'.digestValid = s.digestValid

theorem sameOperands_of_registers {i : Instr} {s s' : State} (hn : s'.n = s.n) (he : s'.e = s.e) (hb : s'.b = s.b)
    (hsha : i ≠ .rsaModexp → s'.h = s.h ∧ s'.digestValid = s.digestValid) : SameOperands i s s' where
  nInt := by rw [State.nInt, hn, State.nInt]
  eInt := by rw [State.eInt, he, State.eInt]
  bInt := by rw [State.bInt, hb, State.bInt]
  digest hi := by
    obtain ⟨hh, -⟩ := hsha hi
    rw [State.digest, hh, State.digest]
  digestValid hi := (hsha hi).right

theorem RsaEffect.sameOperands_apply (f : RsaEffect) (i : Instr) (s : State) : SameOperands i s (f.apply s) :=
  sameOperands_of_registers rfl rfl rfl fun _ => ⟨rfl, rfl⟩

theorem SameOperands.key {i : Instr} {s s' : State} (h : SameOperands i s s') :
    (s'.nInt % 2 = 1 ∧ 1 < s'.eInt ∧ s'.eInt < s'.nInt) ↔ (s.nInt % 2 = 1 ∧ 1 < s.eInt ∧ s.eInt < s.nInt) := by
  rw [h.nInt, h.eInt]

/-- The effect is what the command does in every state with the operands of `s`; it writes R where there is no error, and
RSA_VERIFY always writes VERIFY_OK. -/
structure RsaEffect.Of (f : RsaEffect) (i : Instr) (s : State) : Prop where
  answers : ∀ s', SameOperands i s s' → exec i s' = .next (f.apply s')
  writesR : f.code = .ok → f.r.isSome = true
  writesVerifyOk : i = .rsaVerify → f.verifyOk.isSome = true

theorem exists_effect_rsaModexp (s : State) : ∃ f : RsaEffect, f.Of .rsaModexp s := by
  by_cases hn : s.nInt = 0
  · exact ⟨⟨none, none, .modZero⟩, fun s' h => exec_rsaModexp_of_zero (h.nInt.trans hn), nofun, nofun⟩
  · refine ⟨⟨some (toReg (s.bInt ^ s.eInt % s.nInt)), none, .ok⟩, fun s' h => ?_, fun _ => rfl, nofun⟩
    rw [exec_rsaModexp_of_modulus (h.nInt.trans_ne hn), h.nInt, h.eInt, h.bInt]
    rfl

theorem exists_effect_rsaSign (s : State) : ∃ f : RsaEffect, f.Of .rsaSign s := by
  have valid {s'} (h : SameOperands .rsaSign s s') := h.digestValid nofun
  cases hd : s.digestValid with
  | false => exact ⟨⟨none, none, .noDigest⟩, fun s' h => exec_rsaSign_of_no_digest ((valid h).trans hd), nofun, nofun⟩
  | true =>
    by_cases hk : s.nInt % 2 = 1 ∧ 1 < s.eInt ∧ s.eInt < s.nInt
    · refine ⟨⟨some (toReg ((s.digest % s.nInt) ^ s.eInt % s.nInt)), none, .ok⟩, fun s' h => ?_, fun _ => rfl, nofun⟩
      rw [exec_rsaSign_of_key ((valid h).trans hd) (h.key.2 hk), h.nInt, h.eInt, h.digest nofun]
      rfl
    · exact ⟨⟨none, none, .keyInvalid⟩,
        fun s' h => exec_rsaSign_of_bad_key ((valid h).trans hd) (h.key.not.2 hk), nofun, nofun⟩

theorem exists_effect_rsaVerify (s : State) : ∃ f : RsaEffect, f.Of .rsaVerify s := by
  have valid {s'} (h : SameOperands .rsaVerify s s') := h.digestValid nofun
  cases hd : s.digestValid with
  | false =>
    exact ⟨⟨none, some false, .noDigest⟩, fun s' h => exec_rsaVerify_of_no_digest ((valid h).trans hd), nofun,
      fun _ => rfl⟩
  | true =>
    by_cases hk : s.nInt % 2 = 1 ∧ 1 < s.eInt ∧ s.eInt < s.nInt
    · by_cases hb : s.bInt < s.nInt
      · refine ⟨⟨some (toReg (s.bInt ^ s.eInt % s.nInt)), some (decide (s.digest % s.nInt = s.bInt ^ s.eInt % s.nInt)),
          .ok⟩, fun s' h => ?_, fun _ => rfl, fun _ => rfl⟩
        rw [exec_rsaVerify_of_key ((valid h).trans hd) (h.key.2 hk) (by rwa [h.bInt, h.nInt]), h.nInt, h.eInt, h.bInt,
          h.digest nofun]
        rfl
      · refine ⟨⟨none, some false, .invalidSignature⟩, fun s' h => ?_, nofun, fun _ => rfl⟩
        exact exec_rsaVerify_of_large_signature ((valid h).trans hd) (h.key.2 hk)
          (by rw [h.bInt, h.nInt]; exact Nat.le_of_not_lt hb)
    · exact ⟨⟨none, some false, .keyInvalid⟩,
        fun s' h => exec_rsaVerify_of_bad_key ((valid h).trans hd) (h.key.not.2 hk), nofun, fun _ => rfl⟩

theorem exists_effect {i : Instr} (hi : isRsa i = true) (s : State) : ∃ f : RsaEffect, f.Of i s := by
  cases i with
  | shaInit | shaBlock | shaFinal => cases hi
  | rsaModexp => exact exists_effect_rsaModexp s
  | rsaSign => exact exists_effect_rsaSign s
  | rsaVerify => exact exists_effect_rsaVerify s

/-- Settles O32: the state left has the operands of the first, so the same effect applies to it again. -/
theorem rsaCommandsArePure : Obligations.RsaCommandsArePure := by
  unfold Obligations.RsaCommandsArePure
  intro i s t hi ht
  obtain ⟨f, hf⟩ := exists_effect hi s
  have hfirst := hf.answers s (sameOperands_of_registers rfl rfl rfl fun _ => ⟨rfl, rfl⟩)
  obtain rfl := next_inj (hfirst.symm.trans ht)
  refine ⟨⟨rfl, rfl, rfl, rfl, rfl, rfl, rfl⟩, ?_, fun s' hn he hb hsha => ?_⟩
  · rw [hf.answers _ (f.sameOperands_apply i s), f.apply_apply]
  · exact ⟨_, hf.answers s' (sameOperands_of_registers hn he hb hsha), rfl,
      fun hok => RsaEffect.apply_r (hf.writesR (errCode_code_injective hok)) s s',
      fun hv => RsaEffect.apply_verifyOk (hf.writesVerifyOk hv) s s'⟩

end Sys2Proof.Machine
end

section
/-!
Signing and verifying with one key pair (R151): raising to e·d is the identity modulo p·q.
-/
namespace Sys2Proof.Machine

/-- Fermat's little theorem for two primes: an exponent that is 1 modulo (p − 1)(q − 1) keeps every residue modulo p·q. -/
theorem pow_modEq_self {p q k : Nat} (hp : p.Prime) (hq : q.Prime) (hpq : p ≠ q) (hk : k % ((p - 1) * (q - 1)) = 1)
    (a : Nat) : a ^ k ≡ a [MOD p * q] := by
  have hdvd : (p - 1) * (q - 1) ∣ k - 1 := by
    have h := Nat.dvd_sub_mod (n := (p - 1) * (q - 1)) k
    rwa [hk] at h
  have hpos : 1 ≤ k := by
    rw [Nat.one_le_iff_ne_zero]
    rintro rfl
    rw [Nat.zero_mod] at hk
    cases hk
  have modPrime {r : Nat} (hr : r.Prime) (hrk : r - 1 ∣ k - 1) : a ^ k ≡ a [MOD r] := by
    have h := Int.ModEq.pow_eq_pow hr hrk hpos Nat.one_pos a
    rw [pow_one] at h
    exact_mod_cast h
  rw [← Nat.modEq_and_modEq_iff_modEq_mul ((Nat.coprime_primes hp hq).2 hpq)]
  exact ⟨modPrime hp (dvd_of_mul_right_dvd hdvd), modPrime hq (dvd_of_mul_left_dvd hdvd)⟩

/-- Raising to e undoes raising to d, up to reduction by the modulus. -/
theorem signature_pow_mod {p q e d : Nat} (hp : p.Prime) (hq : q.Prime) (hpq : p ≠ q)
    (hed : e * d % ((p - 1) * (q - 1)) = 1) (h : Nat) : (h ^ d % (p * q)) ^ e ≡ h [MOD p * q] :=
  calc (h ^ d % (p * q)) ^ e
      ≡ (h ^ d) ^ e [MOD p * q] := (Nat.mod_modEq _ _).pow e
    _ = h ^ (e * d) := by rw [← pow_mul, Nat.mul_comm]
    _ ≡ h [MOD p * q] := pow_modEq_self hp hq hpq hed h

theorem modExp_mul (h1 h2 d n : Nat) : modExp h1 d n * modExp h2 d n % n = modExp (h1 * h2 % n) d n := by
  rw [modExp_eq_pow, modExp_eq_pow, modExp_eq_pow, ← Nat.mul_mod, ← mul_pow, ← Nat.pow_mod]

/-- RSA_SIGN with a digest and a valid key leaves the modular power, below int(N), in R. -/
theorem exec_rsaSign_signature {s : State} (hd : s.digestValid = true)
    (hk : s.nInt % 2 = 1 ∧ 1 < s.eInt ∧ s.eInt < s.nInt) :
    ∃ t, exec .rsaSign s = .next t ∧ t.err = 0x0#4 ∧ t.rInt = modExp (s.digest % s.nInt) s.eInt s.nInt
      ∧ t.rInt < s.nInt := by
  have hlt := modExp_lt (s.digest % s.nInt) s.eInt (n := s.nInt) (by omega)
  have hr := intOf_toReg_of_lt (hlt.trans s.nInt_lt)
  have ht := exec_rsaSign_of_key hd hk
  rw [← modExp_eq_pow] at ht
  exact ⟨_, ht, rfl, hr, hr.trans_lt hlt⟩

/-- Settles O33: the signature is below int(N), and raising it to e recovers the digest modulo int(N). -/
theorem signThenVerifyAccepts : Obligations.SignThenVerifyAccepts := by
  unfold Obligations.SignThenVerifyAccepts
  refine ⟨?_, fun h1 h2 d n _ => modExp_mul h1 h2 d n⟩
  rintro s p q e _ hp hq hpq hp2 hq2 hed he1 hen hd1 hdn hn rfl hdigest
  have hodd : s.nInt % 2 = 1 := by rw [hn, Nat.mul_mod, hp2, hq2]
  obtain ⟨t, ht, herr, hr, hlt⟩ := exec_rsaSign_signature hdigest ⟨hodd, hd1, by rwa [hn]⟩
  refine ⟨t, ht, herr, hr, hlt, fun u hun huh hud hue hub => ?_⟩
  obtain ⟨-, htn, -⟩ := commandsLeaveOperandsAndHost _ s t ht
  obtain ⟨hth, -, -, htd, -⟩ := rsaCommandsLeaveShaUnit _ s t rfl ht
  have hN : u.nInt = s.nInt := by rw [State.nInt, hun, htn, State.nInt]
  have hH : u.digest = s.digest := by rw [State.digest, huh, hth, State.digest]
  have hmatch : u.digest % u.nInt = u.bInt ^ u.eInt % u.nInt := by
    rw [hN, hH, hub, hue, hr, modExp_eq_pow, hn, signature_pow_mod hp hq hpq hed, Nat.mod_mod]
  refine ⟨_, exec_rsaVerify_of_key ((hud.trans htd).trans hdigest) ⟨?_, ?_, ?_⟩ ?_, rfl, decide_eq_true hmatch⟩
  · rwa [hN]
  · rwa [hue]
  · rwa [hN, hue, hn]
  · rwa [hN, hub]

end Sys2Proof.Machine
end

section
/-!
Exceptions (R179, R180, R183): what a completion with an error leaves, the code the engine's step reports, and the level of the
interrupt output.
-/
namespace Sys2Proof.Machine

/-! ### The code reported (R179) -/

/-- The checks read no planned move. -/
theorem resultCode_moved (i : Instr) (s : State) : resultCode i s.moved = resultCode i s := by
  cases i <;> rfl

/-- Settles O11: the busy engine's step ends with ILLEGAL_CMD or with the completion of the decoded command, which reports the
code of its checks. -/
theorem firstApplicableErrorIsReported : Obligations.FirstApplicableErrorIsReported := by
  unfold Obligations.FirstApplicableErrorIsReported
  have reported {i : Instr} {s t : State} (h : exec i s = .next t) : t.err = (resultCode i s).code := by
    obtain ⟨-, -, herr⟩ := (exec_completion h).status
    exact herr
  refine ⟨fun i s t => reported, fun s t hm hb h => ?_⟩
  rw [step_of_engine hm] at h
  cases hd : decode s.cur with
  | error x =>
    rw [engineStep_of_illegal (s := s.moved) hb hd] at h
    cases h
    rfl
  | ok i =>
    rw [engineStep_of_legal (s := s.moved) hb hd] at h
    exact (reported h).trans (congrArg ErrCode.code (resultCode_moved i s))

/-! ### Errors are precise (R180) -/

/-- Settles O12: an error's completion finishes the state before, after RSA_VERIFY has cleared VERIFY_OK; every other completion
reports 0. -/
theorem errorCompletionIsPrecise : Obligations.ErrorCompletionIsPrecise := by
  unfold Obligations.ErrorCompletionIsPrecise
  constructor
  · intro i s t h he
    cases exec_completion h with
    | error _ hi => rw [if_neg hi]; rfl
    | verifyError => rfl
    | init | block | final | power | verified => exact absurd rfl he
  · rintro s t ⟨x, hx⟩ h
    rw [completeCur, hx] at h
    cases h
    rfl

/-! ### The interrupt output (R183, R184) -/

/-- A completion raises DONE and leaves CTRL.IE, so the interrupt output is the enable bit. -/
theorem Completion.irq {i : Instr} {s t : State} (h : Completion s i t) : irq t = s.ie := by
  obtain ⟨hdone, -, -⟩ := h.status
  obtain ⟨-, -, -, -, hie, -, -⟩ := h.operands
  rw [Machine.irq, hdone, hie, Bool.and_true]

/-- R34: CTRL.IE changes by a write or a reset alone. -/
theorem StepEffect.ie {s t : State} (h : StepEffect s t) :
    BitChange (mayWrite (nextTurn s)) (mayWrite (nextTurn s) ∨ nextTurn s = .reset) s.ie t.ie := by
  cases h with
  | quiet | illegal => exact .same rfl
  | completes _ _ _ _ _ hc =>
    obtain ⟨-, -, -, -, hie, -, -⟩ := hc.operands
    exact .same hie
  | writes _ _ _ _ _ hm => exact .either hm (.inl hm)
  | resets hm => exact .clear (.inr hm)

/-- The interrupt output falls only where IE or DONE does. -/
theorem StepEffect.irq_falls {s t : State} (h : StepEffect s t) (h1 : irq s = true) (h0 : irq t = false) :
    mayWrite (nextTurn s) ∨ nextTurn s = .reset := by
  obtain ⟨-, ieFalls⟩ := h.ie
  obtain ⟨-, doneFalls⟩ := h.done
  obtain ⟨hie, hdone⟩ := Bool.and_eq_true_iff.1 h1
  obtain hie0 | hdone0 := Bool.and_eq_false_iff.1 h0
  · exact ieFalls hie hie0
  · exact doneFalls hdone hdone0

/-- Settles O48: the level by definition, its changes by what a completion and the two writes do to IE and DONE, and its fall
by the effects of a step. -/
theorem interruptOutputIsLevel : Obligations.InterruptOutputIsLevel := by
  unfold Obligations.InterruptOutputIsLevel
  refine ⟨fun _ => rfl, fun _ _ _ h => (exec_completion h).irq, fun s t v hv h => ?_, fun s t v h => ?_,
    fun s t h h1 h0 => host_or_reset_or_bus ((step_effect h).irq_falls h1 h0)⟩
  · cases (busWrite_offsetOf .status v s).symm.trans h
    simp [writeReg, irq, State.writeStatus, hv]
  · cases (busWrite_offsetOf .ctrl v s).symm.trans h
    rfl

end Sys2Proof.Machine
end

section
/-!
The state a reset leaves (R201, R202): what the host sees of the flags, and the data words.
-/
namespace Sys2Proof.Machine

/-- R201: no bit of STATUS survives a reset, for each field of its layout (R40) is 0. -/
theorem statusWord_afterReset (resets : Nat) : statusWord (State.afterReset resets) = 0x00000000#32 :=
  BitVec.eq_of_toNat_eq (statusWordLayout (State.afterReset resets))

/-- R201: CTRL reads 0, for IE is 0. -/
theorem ctrlWord_afterReset (resets : Nat) : ctrlWord (State.afterReset resets) = 0x00000000#32 := ctrlWord_eq _

/-- R201, R204: with IE = 0 the interrupt output is deasserted. -/
theorem irq_afterReset (resets : Nat) : irq (State.afterReset resets) = false := Bool.false_and _

/-- R202: no word of any of the six data registers is written. -/
theorem afterReset_allUnwritten (resets : Nat) :
    allUnwritten (State.afterReset resets).msg.toList = true ∧ allUnwritten (State.afterReset resets).h.toList = true
    ∧ allUnwritten (State.afterReset resets).n.toList = true ∧ allUnwritten (State.afterReset resets).e.toList = true
    ∧ allUnwritten (State.afterReset resets).b.toList = true ∧ allUnwritten (State.afterReset resets).r.toList = true := by
  refine ⟨?msg, ?h, ?n, ?e, ?b, ?r⟩ <;> exact unwrittenRegister_allUnwritten _ _ _

/-- Settles O50: the flags, LEN and the constants by definition, what is computed from the flags by its value after any reset,
and the data words because a reset leaves every register as `unwrittenRegister`. -/
theorem resetStateValues : Obligations.ResetStateValues := by
  unfold Obligations.ResetStateValues
  exact ⟨rfl, rfl, rfl, rfl, rfl, rfl, rfl, rfl, rfl, statusWord_afterReset 0, ctrlWord_afterReset 0, rfl, irq_afterReset 0,
    afterReset_allUnwritten 0⟩

end Sys2Proof.Machine
end

section
/-!
The order of moves (log 4) and the platform's reset (R200): whose move is next, and what is left to come after it.
-/
namespace Sys2Proof.Machine

/-! ### Whose move is next -/

section order

variable {s : State}

theorem nextTurn_of_planned {m : Turn} {ms : List Turn} (ht : s.turns = m :: ms) : nextTurn s = m := by
  rw [nextTurn, ht]

theorem nextTurn_of_idle_unplanned (ht : s.turns = []) (hb : s.busy = false) : nextTurn s = .host := by
  rw [nextTurn, ht]
  exact if_neg (by simp [hb])

theorem step_of_planned {m : Turn} {ms : List Turn} (ht : s.turns = m :: ms) : step s = takeTurn m (s.setTurns ms) := by
  rw [step_eq, nextTurn_of_planned ht, State.moved, ht, List.tail_cons]

theorem step_of_busy_unplanned (ht : s.turns = []) (hb : s.busy = true) : step s = engineStep s := by
  rw [step_of_engine (nextTurn_of_busy_unplanned ht hb), moved_of_unplanned ht]

theorem step_of_idle_unplanned (ht : s.turns = []) (hb : s.busy = false) : step s = hostStep s := by
  rw [step_eq, nextTurn_of_idle_unplanned ht hb, moved_of_unplanned ht]
  rfl

theorem step_of_reset (hm : nextTurn s = .reset) : step s = .next s.moved.resetEngine := by
  rw [step_eq, hm]
  rfl

end order

/-- Settles O7: the first planned move, else by BUSY. -/
theorem plannedMoveComesNext : Obligations.PlannedMoveComesNext := by
  unfold Obligations.PlannedMoveComesNext
  exact ⟨fun _ _ _ => step_of_planned, fun _ => step_of_busy_unplanned, fun _ => step_of_idle_unplanned⟩

/-- Settles O51: `State.resetEngine` on the state with the planned move used up. -/
theorem platformResetFromAnyState : Obligations.PlatformResetFromAnyState := by
  unfold Obligations.PlatformResetFromAnyState
  exact fun _ => step_of_reset

/-! ### What a move leaves of the moves to come -/

theorem writeReg_turns (reg : WindowReg) (v : Word) (s : State) : (writeReg reg v s).turns = s.turns := by
  cases reg with
  | cmd | msg | n | e | b => exact whenIdle_of (P := fun t => t.turns = s.turns) rfl rfl
  | _ => rfl

theorem engineStep_turns {s t : State} (h : engineStep s = .next t) : t.turns = s.turns := by
  obtain ⟨-, rfl⟩ | ⟨-, ⟨i, -, h⟩ | ⟨_, -, rfl⟩⟩ := engineStep_next h
  · rfl
  · obtain ⟨-, -, -, -, -, -, -, -, hturns, -, -⟩ := commandsLeaveOperandsAndHost i s t h
    exact hturns
  · rfl

theorem hostStep_turns {s t : State} (h : hostStep s = .next t) : t.turns = s.turns := by
  obtain rfl | ⟨pc, rfl | ⟨v, rfl | rfl⟩ | ⟨reg, v, rfl⟩⟩ := hostStep_next h
  · rfl
  · rfl
  · rfl
  · rfl
  · exact writeReg_turns reg v (s.setPc pc)

theorem busAccess_turns {a : Access} {s t : State} (h : busAccess a s = .next t) : t.turns = s.turns := by
  obtain ⟨v, rfl | rfl⟩ | ⟨reg, v, rfl⟩ := busAccess_next h
  · rfl
  · rfl
  · exact writeReg_turns reg v s

/-- No move plans another, so a step only uses up the oldest planned one. -/
theorem step_turns {s t : State} (h : step s = .next t) : t.turns = s.turns.tail := by
  obtain ⟨-, h⟩ | ⟨-, h⟩ | ⟨a, -, h⟩ | ⟨-, rfl⟩ := step_next h
  · exact engineStep_turns h
  · exact hostStep_turns h
  · exact busAccess_turns h
  · rfl

end Sys2Proof.Machine
end

section
/-!
A command in flight ends (R210, in the model's order of moves): each step uses up one planned move, and the busy engine's own
move completes.
-/
namespace Sys2Proof.Machine

/-- R30: the engine's move leaves it idle. -/
theorem engineStep_leaves_idle {s t : State} (h : engineStep s = .next t) : t.busy = false := by
  obtain ⟨hb, rfl⟩ | ⟨-, ⟨i, -, h⟩ | ⟨_, -, rfl⟩⟩ := engineStep_next h
  · exact hb
  · obtain ⟨-, hbusy, -⟩ := (exec_completion h).status
    exact hbusy
  · rfl

/-- What R210 asks of the end of a run: BUSY = 0, or a stop. -/
def IdleOrStopped : Result → Prop
  | .next t => t.busy = false
  | .fault _ => True
  | .refused _ => True

/-- A step after which BUSY = 0, if there is a state after it, is such a run by itself. -/
theorem idleOrStopped_run_one {s : State} (h : ∀ t, step s = .next t → t.busy = false) :
    IdleOrStopped (Sys2Proof.core.run 1 s) := by
  cases hs : step s with
  | next t =>
    rw [core_run_of_next hs]
    exact h t hs
  | fault r =>
    rw [core_run_of_fault hs]
    trivial
  | refused r =>
    rw [core_run_of_refused hs]
    trivial

/-- By induction on the planned moves: where one step neither stops nor ends the command, it has used up a planned move. -/
theorem exists_run_idleOrStopped {ms : List Turn} {s : State} (ht : s.turns = ms) (hb : s.busy = true) :
    ∃ k, k ≤ ms.length + 1 ∧ IdleOrStopped (Sys2Proof.core.run k s) := by
  induction ms generalizing s with
  | nil =>
    refine ⟨1, le_rfl, idleOrStopped_run_one fun t h => ?_⟩
    rw [step_of_busy_unplanned ht hb] at h
    exact engineStep_leaves_idle h
  | cons m ms ih =>
    by_cases hend : ∀ t, step s = .next t → t.busy = false
    · exact ⟨1, by simp, idleOrStopped_run_one hend⟩
    · push Not at hend
      obtain ⟨t, h, hbusy⟩ := hend
      have hturns : t.turns = ms := by rw [step_turns h, ht, List.tail_cons]
      obtain ⟨k, hk, hrun⟩ := ih hturns (by simpa using hbusy)
      refine ⟨k + 1, by simpa using hk, ?_⟩
      rwa [core_run_of_next h]

/-- Settles O59: the bound is the length of the planned moves, and `IdleOrStopped` is the outcome asked for. -/
theorem busyEngineBecomesIdle : Obligations.BusyEngineBecomesIdle := by
  unfold Obligations.BusyEngineBecomesIdle
  exact fun s => exists_run_idleOrStopped rfl

end Sys2Proof.Machine
end
